-- ==== Sys2Proof/Machine/Parameters.lean ====
section
/-! DEFINITION. The block's parameters, every row of 00_scope.md R7 a named constant. A size that is also the
width of an offset field is given once, as the number of offset bits, and the size is two to that power. The
widths are abbreviations because the types of the operands are made of them. `ROM0`, `ROM1`, `UNSPEC8` and
`POWERON_MEM` are in Config.lean. -/

namespace Sys2Proof.Machine

/-! ## The interface -/

/-- `ADDR_WIDTH`: the significant address bits (20_memory.md R50). -/
abbrev addrWidth : Nat := 24

/-- `ADDR_IN_WIDTH`: the width of the address input (20_memory.md R51; log 33). -/
abbrev addrInWidth : Nat := 32

/-- The smaller of `ACCESS_SIZES`, one byte lane (20_memory.md R58). -/
abbrev byteWidth : Nat := 8

/-- `DATA_WIDTH`: the width of the data bus, and the larger of `ACCESS_SIZES` (20_memory.md R50, R58). -/
abbrev dataWidth : Nat := 16

/-- `ACCESS_SIZES`: the sizes of a bus cycle, in bits (20_memory.md R58). -/
def accessSizes : List Nat := [byteWidth, dataWidth]

/-- The two orders a 16-bit bus can have. -/
inductive ByteOrder where
  | bigEndian
  | littleEndian
  deriving DecidableEq, Repr

/-- `BYTE_ORDER` (20_memory.md R52, the spec's decision D1; log 1). -/
def byteOrder : ByteOrder := .bigEndian

/-- The upper byte lane, data bits 15:8 (00_scope.md R8). -/
def upperLane : BitVec dataWidth := 0xFF00

/-- The lower byte lane, data bits 7:0 (00_scope.md R8). -/
def lowerLane : BitVec dataWidth := 0x00FF

/-- Both lanes: the lane mask of a word cycle (20_memory.md R55). -/
def bothLanes : BitVec dataWidth := 0xFFFF

/-- The last address of the masked space (20_memory.md R50). -/
def addrMax : Nat := 2 ^ addrWidth - 1

/-! ## The windows -/

def ramBase : Nat := 0x000000
/-- `RAM_SIZE` is two to this power. -/
abbrev ramOffWidth : Nat := 21
def ramSize : Nat := 2 ^ ramOffWidth

def rom0Base : Nat := 0x200000
def rom1Base : Nat := 0x400000
/-- `ROM_BANK_SIZE` is two to this power. -/
abbrev romOffWidth : Nat := 13
def romBankSize : Nat := 2 ^ romOffWidth

def serialBase : Nat := 0x600000
def serialEnd : Nat := 0x7FFFFF
/-- `SERIAL_SIZE` is two to this power. -/
abbrev serialOffWidth : Nat := 3
def serialSize : Nat := 2 ^ serialOffWidth
def serialPeriod : Nat := 0x20000
/-- `SERIAL_LANES`: the one lane the chip is wired to. -/
def serialLanes : BitVec dataWidth := 0xFF00

def timerBase : Nat := 0x800000
def timerEnd : Nat := 0x9FFFFF
/-- `TIMER_SIZE` is two to this power. -/
abbrev timerOffWidth : Nat := 2
def timerSize : Nat := 2 ^ timerOffWidth
def timerPeriod : Nat := 4

def pagemapBase : Nat := 0xA00000
/-- `PAGEMAP_SIZE` is two to this power. -/
abbrev pagemapOffWidth : Nat := 21
def pagemapSize : Nat := 2 ^ pagemapOffWidth

def segmapBase : Nat := 0xC00000
/-- `SEGMAP_SIZE` is two to this power. -/
abbrev segmapOffWidth : Nat := 21
def segmapSize : Nat := 2 ^ segmapOffWidth

def switchBase : Nat := 0xE00000
/-- The span from `SWITCH_BASE` to `SWITCH_END` is two to this power. -/
abbrev switchOffWidth : Nat := 21
def switchEnd : Nat := switchBase + 2 ^ switchOffWidth - 1

/-- `SWITCH_VALUE`: the constant the switch register reads (10_state.md R28). -/
def switchValue : BitVec dataWidth := 0x7C00

/-! ## Boot, interrupts, lines -/

/-- `BOOT_COPY_LEN`: the bytes RESET copies from ROM bank 0 (43_boot_sequencer.md R201). -/
def bootCopyLen : Nat := 8

/-- The processor level of each interrupt source (10_state.md R31). -/
def irqSerial : Nat := 5
def irqTimer2 : Nat := 6
def irqTimer3 : Nat := 7

/-- `LINE_INIT`: the level of every line at construction (log 8). -/
def lineInit : Bool := false

end Sys2Proof.Machine
end

