-- ==== Sys2Proof/Word.lean ====
section
/-! DEFINITION. The word types of the block's interface: bytes, bus words, addresses. -/

namespace Sys2Proof

/-- One byte: a storage cell, or one lane of the data bus (00_scope.md R8). -/
abbrev Byte := BitVec Machine.byteWidth

/-- A word of the 16-bit data bus (20_memory.md R50): upper lane 15:8, lower lane 7:0. -/
abbrev BusWord := BitVec Machine.dataWidth

/-- A masked bus address, `a = A[23:0]` (40_decode.md R111). -/
abbrev Addr := BitVec Machine.addrWidth

/-- An address as it arrives at the interface (20_memory.md R51). -/
abbrev AddrIn := BitVec Machine.addrInWidth

end Sys2Proof
end

