-- ==== Sys2Proof/Syntax.lean ====
section
/-! DEFINITION. The operation records that arrive at the block's interface (30_encoding.md R80, R81,
R86 to R88) and the decoded operations, one constructor of `Instr` per row of spec/opcode_table.json. -/

namespace Sys2Proof

open Machine

/-- The two sizes of a bus cycle (20_memory.md R58). -/
inductive Size where
  | byte
  | word
  deriving DecidableEq, Repr

/-- Write data together with the size of the cycle: `D` has `size` bits (30_encoding.md R81). -/
inductive WData where
  | byte (d : Byte)
  | word (d : BusWord)
  deriving DecidableEq, Repr

/-- The direction field `rw` of a bus cycle (30_encoding.md R81). -/
inductive Rw where
  | read
  | write
  deriving DecidableEq, Repr

/-- An operation as it arrives: the abstract records of 30_encoding.md R80. `size` is any number, since
the spec names the sizes it refuses (R93); `src` is the 3-bit code of R86, two of whose values name no
source. On an 8-bit write the data is `D[7:0]`; a read ignores `D` (log 32). -/
inductive Request where
  | bus (rw : Rw) (size : Nat) (addr : AddrIn) (data : BusWord)
  | line (src : BitVec 3) (level : Bool)
  | reset
  | construct (rom0 rom1 : List Byte)
  | query (addr : AddrIn) (size : Nat)
  deriving DecidableEq, Repr

/-- Why the decoder gives a record no operation: the refused forms of 30_encoding.md R93 that show in
the record itself. -/
inductive Reject where
  /-- A bus cycle or RESOLVE whose size is not 8 or 16 (20_memory.md R58). -/
  | badSize (size : Nat)
  /-- A 16-bit bus cycle or RESOLVE at an odd masked address (20_memory.md R56). -/
  | oddWord (a : Addr)
  /-- A SETLINE whose code names no source (30_encoding.md R86). -/
  | noSuchLine (src : BitVec 3)
  deriving DecidableEq, Repr

/-- The operations, one constructor per row of spec/opcode_table.json. A bus cycle carries what its
window's handler is given: the offset inside the image (30_encoding.md R82), never the image number or
`A[31:24]`, which are ignored (R92). An unmapped cycle carries the masked address. -/
inductive Instr where
  | rdRam (size : Size) (off : BitVec ramOffWidth)
  | wrRam (off : BitVec ramOffWidth) (d : WData)
  | rdRom0 (size : Size) (off : BitVec romOffWidth)
  | wrRom0 (off : BitVec romOffWidth) (d : WData)
  | rdRom1 (size : Size) (off : BitVec romOffWidth)
  | wrRom1 (off : BitVec romOffWidth) (d : WData)
  | rdSerial (size : Size) (off : BitVec serialOffWidth)
  | wrSerial (off : BitVec serialOffWidth) (d : WData)
  | rdTimer (size : Size) (off : BitVec timerOffWidth)
  | wrTimer (off : BitVec timerOffWidth) (d : WData)
  | rdPagemap (size : Size) (off : BitVec pagemapOffWidth)
  | wrPagemap (off : BitVec pagemapOffWidth) (d : WData)
  | rdSegmap (size : Size) (off : BitVec segmapOffWidth)
  | wrSegmap (off : BitVec segmapOffWidth) (d : WData)
  | rdSwitch (size : Size) (off : BitVec switchOffWidth)
  | wrSwitch (off : BitVec switchOffWidth) (d : WData)
  | rdUnmapped (size : Size) (a : Addr)
  | wrUnmapped (a : Addr) (d : WData)
  | setlineSerInt (level : Bool)
  | setlineTmrOut1 (level : Bool)
  | setlineTmrOut2 (level : Bool)
  | setlineTmrOut3 (level : Bool)
  | setlineTmrOut4 (level : Bool)
  | setlineTmrOut5 (level : Bool)
  | reset
  | construct (rom0 rom1 : List Byte)
  | resolve (addr : AddrIn) (size : Size)
  deriving DecidableEq, Repr

end Sys2Proof
end

