-- ==== Sys2Proof/Config.lean ====
section
/-! DEFINITION. The types of the board's fixed configuration and of the collaborators' interfaces
(00_scope.md R11), and the values the spec leaves free, as constants without a body. The other
parameters of 00_scope.md R7 are in Machine/Parameters.lean. -/

namespace Sys2Proof

/-- The eight windows, in the order of the table of 10_state.md R34. -/
inductive WindowName where
  | ram | rom0 | rom1 | serial | timer | pagemap | segmap | switch
  deriving DecidableEq, Repr

/-- The `writable` column of 10_state.md R34. -/
inductive Access where
  | readWrite | readOnly | device
  deriving DecidableEq, Repr

/-- An AddressWindow record (10_state.md R34). `last` is the spec's `end`, the last address of the span. -/
structure Window where
  name : WindowName
  base : Nat
  last : Nat
  size : Nat
  period : Nat
  width : Nat
  lanes : BusWord
  access : Access
  deriving DecidableEq, Repr

/-- The three writable byte arrays (10_state.md R24, R27). -/
inductive Store where
  | ram | pagemap | segmap
  deriving DecidableEq, Repr

/-- The two ROM banks (10_state.md R25). -/
inductive Bank where
  | rom0 | rom1
  deriving DecidableEq, Repr

/-- The six line sources (30_encoding.md R86). -/
inductive LineSrc where
  | serInt | tmrOut1 | tmrOut2 | tmrOut3 | tmrOut4 | tmrOut5
  deriving DecidableEq, Repr

/-- The timer chip's five outputs (44_board_wiring.md R225). -/
inductive TimerOut where
  | out1 | out2 | out3 | out4 | out5
  deriving DecidableEq, Repr

/-- The two serial channels (44_board_wiring.md R226). -/
inductive Chan where
  | A | B
  deriving DecidableEq, Repr

/-- What a wired line drives (10_state.md R30, R31). -/
inductive LineDest where
  | irq (level : Nat)
  | serialClk (ch : Chan)
  deriving DecidableEq, Repr

/-- Two destinations of the same kind, for the validity check of 44_board_wiring.md R217. -/
def LineDest.sameKind : LineDest → LineDest → Bool
  | .irq _, .irq _ => true
  | .serialClk _, .serialClk _ => true
  | .irq _, .serialClk _ => false
  | .serialClk _, .irq _ => false

/-- One wire of the board (10_state.md R31). -/
structure Wire where
  src : LineSrc
  dest : LineDest
  deriving DecidableEq, Repr

/-- The external lines of a serial channel and its clock source (10_state.md R36): `true` where the line
is connected. The block holds no level for any of them. -/
structure SerialChannel where
  index : Chan
  txd : Bool
  rxd : Bool
  dtr : Bool
  rts : Bool
  dcd : Bool
  cts : Bool
  clock : LineSrc
  deriving DecidableEq, Repr

/-- A call of the block into the serial or the timer collaborator (00_scope.md R11). -/
inductive DevCall where
  | serialRead (reg : BitVec 2)
  | serialWrite (reg : BitVec 2) (v : Byte)
  | serialClk (ch : Chan) (level : Bool)
  | timerRead (reg : BitVec 1) (lanes : BusWord)
  | timerWrite (reg : BitVec 1) (v : BusWord) (lanes : BusWord)
  | pinGate (ch : Nat) (level : Bool)
  | pinSource (ch : Nat) (level : Bool)
  deriving DecidableEq, Repr

/-- What the serial collaborator does with one call: the byte it returns (used by `Serial.Read` only) and
the levels of the `SetLine(SER_INT, _)` calls it makes before returning, in order (20_memory.md R68). -/
structure SerialAnswer where
  data : Byte
  ints : List Bool
  deriving DecidableEq, Repr, Inhabited

/-- What the timer collaborator does with one register access: the word it returns (used by `Timer.Read`
only) and the `SetLine(TMR_OUTc, _)` calls it makes before returning, in order (20_memory.md R68). -/
structure TimerAnswer where
  data : BusWord
  outs : List (TimerOut × Bool)
  deriving DecidableEq, Repr, Inhabited

/-- `UNSPEC8()` (41_window_access.md R141): the byte on an unconnected lane, a free value at each use. The
argument counts the draws, so that no two uses need agree (log 6). -/
opaque Config.unspec8 : Nat → Byte

/-- `POWERON_MEM` (10_state.md R24, R27): the content at construction of cell `i` of a writable array, a
free value per cell (log 5). -/
opaque Config.powerOnMem : Store → Nat → Byte

/-- `ROM0` (00_scope.md R7): the image of ROM bank 0, an argument of the model (log 4). -/
opaque Config.romBank0 : Vector Byte Machine.romBankSize

/-- `ROM1` (00_scope.md R7): the image of ROM bank 1, an argument of the model (log 4). -/
opaque Config.romBank1 : Vector Byte Machine.romBankSize

/-- A byte beyond the end of a short ROM image: the spec has no rule for it (91_not_in_source.md N5), and
no reachable state reads one (log 16). -/
opaque Config.beyondRom : Bank → Nat → Byte

/-- The serial collaborator's answer to the last call of the list, where the state lists none: free, and
free again at each call (70_reset_and_hazards.md R285; log 7). The list is every call the block has made
into the two chips, the number counts the draws. -/
opaque Config.serialAnswer : Nat → List DevCall → SerialAnswer

/-- The timer collaborator's answer, as `Config.serialAnswer` (log 7). -/
opaque Config.timerAnswer : Nat → List DevCall → TimerAnswer

end Sys2Proof
end

