-- ==== Sys2Proof/Machine/WindowTable.lean ====
section
/-! DEFINITION. The constant tables made of the block's parameters: the window table (10_state.md R34), the
wiring (R31), the pinned timer inputs (R35), the serial channels' wiring (R36), the ROM images (R25). -/

namespace Sys2Proof.Machine

/-- The size of each writable array (10_state.md R24, R27). -/
def storeSize : Store → Nat
  | .ram => ramSize
  | .pagemap => pagemapSize
  | .segmap => segmapSize

def ramWindow : Window :=
  { name := .ram, base := ramBase, last := ramBase + ramSize - 1, size := ramSize, period := ramSize,
    width := dataWidth, lanes := bothLanes, access := .readWrite }

def rom0Window : Window :=
  { name := .rom0, base := rom0Base, last := rom0Base + romBankSize - 1, size := romBankSize,
    period := romBankSize, width := dataWidth, lanes := bothLanes, access := .readOnly }

def rom1Window : Window :=
  { name := .rom1, base := rom1Base, last := rom1Base + romBankSize - 1, size := romBankSize,
    period := romBankSize, width := dataWidth, lanes := bothLanes, access := .readOnly }

def serialWindow : Window :=
  { name := .serial, base := serialBase, last := serialEnd, size := serialSize, period := serialPeriod,
    width := byteWidth, lanes := serialLanes, access := .device }

def timerWindow : Window :=
  { name := .timer, base := timerBase, last := timerEnd, size := timerSize, period := timerPeriod,
    width := dataWidth, lanes := bothLanes, access := .device }

def pagemapWindow : Window :=
  { name := .pagemap, base := pagemapBase, last := pagemapBase + pagemapSize - 1, size := pagemapSize,
    period := pagemapSize, width := dataWidth, lanes := bothLanes, access := .readWrite }

def segmapWindow : Window :=
  { name := .segmap, base := segmapBase, last := segmapBase + segmapSize - 1, size := segmapSize,
    period := segmapSize, width := dataWidth, lanes := bothLanes, access := .readWrite }

def switchWindow : Window :=
  { name := .switch, base := switchBase, last := switchEnd, size := switchEnd + 1 - switchBase,
    period := switchEnd + 1 - switchBase, width := dataWidth, lanes := bothLanes, access := .readOnly }

/-- The window table, in the order of 10_state.md R34. -/
def windowTable : List Window :=
  [ramWindow, rom0Window, rom1Window, serialWindow, timerWindow, pagemapWindow, segmapWindow, switchWindow]

/-- The interrupt and clock wiring (10_state.md R31); timer output 1 goes nowhere. -/
def wiring : List Wire :=
  [{ src := .serInt, dest := .irq irqSerial },
   { src := .tmrOut2, dest := .irq irqTimer2 },
   { src := .tmrOut3, dest := .irq irqTimer3 },
   { src := .tmrOut4, dest := .serialClk .A },
   { src := .tmrOut5, dest := .serialClk .B }]

/-- The level each GATE input of the timer chip is pinned to (10_state.md R35): channel 1 asserted, the
others deasserted. -/
def gatePin (ch : Nat) : Bool := ch == 1

/-- The level each SOURCE input of the timer chip is pinned to (10_state.md R35): deasserted. -/
def sourcePin (_ch : Nat) : Bool := false

/-- The timer chip's channels (44_board_wiring.md R218, R225). -/
def timerChannels : List Nat := [1, 2, 3, 4, 5]

/-- Channel A's wiring: every external line (10_state.md R36, 44_board_wiring.md R227), clocked by timer
output 4 (R221). -/
def serialChannelA : SerialChannel :=
  { index := .A, txd := true, rxd := true, dtr := true, rts := true, dcd := true, cts := true,
    clock := .tmrOut4 }

/-- Channel B's wiring: of its external lines only the receive line (10_state.md R36, 44_board_wiring.md
R228), clocked by timer output 5 (R222). -/
def serialChannelB : SerialChannel :=
  { index := .B, txd := false, rxd := true, dtr := false, rts := false, dcd := false, cts := false,
    clock := .tmrOut5 }

/-- Byte `i` of a ROM image (10_state.md R25); beyond the image's end a free value (log 16). -/
def romByte (b : Bank) (img : List Byte) (i : Nat) : Byte :=
  img[i]?.getD (Config.beyondRom b i)

/-- A bank image from its two interleaved streams (10_state.md R25): byte `2k` is byte `k` of the even
stream, byte `2k + 1` is byte `k` of the odd stream. -/
def bankOfStreams (even odd : List Byte) : List Byte :=
  (List.zipWith (fun e o => [e, o]) even odd).flatten

end Sys2Proof.Machine
end

