-- ==== Sys2Proof/Machine/State.lean ====
section
/-! DEFINITION. The state of the block: everything 10_state.md R20 lists, then the model's own fields
(the interface's inputs, outputs and bookkeeping), and the state after reset. -/

namespace Sys2Proof.Machine

/-- The lifecycle of the board (10_state.md R32). -/
inductive Phase where
  | unbuilt
  | built
  | running
  deriving DecidableEq, Repr

/-- The events of the output trace (10_state.md R33). -/
inductive OutEvent where
  | cpuReset
  | cpuIrq (level : Nat) (asserted : Bool)
  | serialClk (ch : Chan) (level : Bool)
  | pinGate (ch : Nat) (level : Bool)
  | pinSource (ch : Nat) (level : Bool)
  deriving DecidableEq, Repr

/-- The three error kinds and what they carry (60_exceptions.md R241 to R244). -/
inductive BoardError where
  | unmappedAccess (a : Addr)
  | malformedRomImage
  | invalidWireConfiguration
  deriving DecidableEq, Repr

/-- What an operation returns to its caller (30_encoding.md R81, R88; 60_exceptions.md R240). -/
inductive Response where
  /-- No operation has been performed yet. -/
  | none
  /-- Completion without data. -/
  | done
  | byte (v : Byte)
  | word (v : BusWord)
  /-- RESOLVE's answer: the window and the offset in it. -/
  | resolved (w : WindowName) (off : Nat)
  /-- The operation raised an error (R240). -/
  | error (e : BoardError)
  deriving DecidableEq, Repr

/-- Reasons for which the machine stops with a fault. There is none: the block's three errors are returned
to the caller and the next operation goes on (60_exceptions.md R240, R245). Nothing raises one: safe. -/
inductive Fault where
  deriving DecidableEq, Repr

/-- Reasons for which an operation is refused: the forms of 60_exceptions.md R246, to which a model must
not assign a result. All are safe: a run that issues one stops. -/
inductive Refusal where
  /-- An instruction without a meaning yet; raised by `exec` only. Safe. -/
  | notModelled (mnemonic : String)
  /-- A record the decoder gives no operation (30_encoding.md R93); raised by `step`. Safe. -/
  | rejected (r : Reject)
  /-- An operation in a phase that does not admit it (70_reset_and_hazards.md R276); raised by every
  operation but RESOLVE. Safe. -/
  | notAdmitted (p : Phase)
  /-- A word cycle or a word RESOLVE with an odd address (20_memory.md R56); raised by bus cycles and
  RESOLVE. The decoder makes none. Safe. -/
  | oddWord
  /-- A CONSTRUCT whose images are neither short nor whole (10_state.md R26); raised by CONSTRUCT. Safe. -/
  | romLength (n0 n1 : Nat)
  /-- An unmapped cycle whose address a window matches, which is no operation at all: the decoder makes
  none; raised by RD.UNMAPPED and WR.UNMAPPED (log 31). Safe. -/
  | mappedAddress (a : Addr)
  deriving DecidableEq, Repr

/-- The cells of a writable array that have been written since construction, index and byte, indices
strictly rising. A cell not listed still holds its power-on value, which is free (log 5). -/
abbrev Memory := List Host.Cell

/-- The canonical form of an array of `size` bytes: indices strictly rising and inside the array. -/
abbrev Memory.wf (size : Nat) (m : Memory) : Prop :=
  m.Pairwise (fun c d => c.1 < d.1) ∧ ∀ c ∈ m, c.1 < size

/-- The state. The fields down to `out` are those of 10_state.md R20 (with the ROM images of R25); the
others are the model's own: what the outside has put at the interface and what the block has answered. -/
structure State where
  /-- RAM (R24). -/
  ram : Memory
  /-- PAGEMAP (R27). -/
  pagemap : Memory
  /-- SEGMAP (R27). -/
  segmap : Memory
  /-- ROM0, byte 0 first; empty before CONSTRUCT (R25). -/
  rom0 : List Byte
  /-- ROM1 (R25). -/
  rom1 : List Byte
  /-- SERINT (R30). -/
  serint : Bool
  /-- TOUT[2] (R30). -/
  tout2 : Bool
  /-- TOUT[3] (R30). -/
  tout3 : Bool
  /-- TOUT[4] (R30). -/
  tout4 : Bool
  /-- TOUT[5] (R30). -/
  tout5 : Bool
  /-- IRQ[5] (R29). -/
  irq5 : Bool
  /-- IRQ[6] (R29). -/
  irq6 : Bool
  /-- IRQ[7] (R29). -/
  irq7 : Bool
  /-- The lifecycle phase (R32). -/
  phase : Phase
  /-- OUT, oldest event first (R33). -/
  out : List OutEvent
  /-- The operations issued and not yet performed, next first (log 2). -/
  inbox : List Request
  /-- What the last operation returned (log 17). -/
  resp : Response
  /-- How many free values have been drawn (log 6). -/
  draws : Nat
  /-- Every call made into the two chips, oldest first (log 7). -/
  calls : List DevCall
  /-- The serial collaborator's next answers (log 7). -/
  serialAnswers : List SerialAnswer
  /-- The timer collaborator's next answers (log 7). -/
  timerAnswers : List TimerAnswer
  deriving DecidableEq, Repr

/-- The ten pin events of CONSTRUCT (44_board_wiring.md R218). -/
def pinEvents : List OutEvent :=
  timerChannels.map (fun ch => OutEvent.pinGate ch (gatePin ch)) ++
    timerChannels.map (fun ch => OutEvent.pinSource ch (sourcePin ch))

/-- The ten pin calls of CONSTRUCT (44_board_wiring.md R218). -/
def pinCalls : List DevCall :=
  timerChannels.map (fun ch => DevCall.pinGate ch (gatePin ch)) ++
    timerChannels.map (fun ch => DevCall.pinSource ch (sourcePin ch))

/-- The first bytes of a ROM bank 0 image as cells of RAM (43_boot_sequencer.md R201). -/
def bootCells (rom0 : List Byte) : Memory :=
  (List.range bootCopyLen).map (fun i => (i, romByte .rom0 rom0 i))

/-- Power-on, before CONSTRUCT: `phase` and OUT as 10_state.md R32 and R33 give them, no board. -/
def State.powerOn : State :=
  { ram := [], pagemap := [], segmap := [], rom0 := [], rom1 := [],
    serint := lineInit, tout2 := lineInit, tout3 := lineInit, tout4 := lineInit, tout5 := lineInit,
    irq5 := lineInit, irq6 := lineInit, irq7 := lineInit,
    phase := .unbuilt, out := [],
    inbox := [], resp := .none, draws := 0, calls := [], serialAnswers := [], timerAnswers := [] }

/-- The machine right after reset: the column "after RESET" of 70_reset_and_hazards.md R270, that is after
CONSTRUCT with the model's two images and one RESET (R272; log 3). -/
def State.reset : State :=
  { State.powerOn with
    ram := bootCells Config.romBank0.toList
    rom0 := Config.romBank0.toList
    rom1 := Config.romBank1.toList
    phase := .running
    out := pinEvents ++ [.cpuReset]
    calls := pinCalls
    resp := .done }

end Sys2Proof.Machine
end

