-- ==== Sys2Proof/Machine/AddressDecoder.lean ====
section
/-! DEFINITION. The AddressDecoder by its arithmetic rule (40_decode.md), and the validity checks on the
window table and the wiring that CONSTRUCT runs (40_decode.md R121, 44_board_wiring.md R217). -/

namespace Sys2Proof.Machine

/-- `Matches(W, a)` (40_decode.md R113). -/
def windowMatches (w : Window) (a : Nat) : Bool :=
  w.base ≤ a && a ≤ w.last && (a - w.base) % w.period < w.size

/-- `Offset(W, a)` (40_decode.md R114). -/
def windowOffset (w : Window) (a : Nat) : Nat := (a - w.base) % w.period

/-- The search of 40_decode.md R110 through a table, in table order. -/
def resolveIn (table : List Window) (a : Nat) : Option (Window × Nat) :=
  (table.find? (fun w => windowMatches w a)).map (fun w => (w, windowOffset w a))

/-- RESOLVE at a masked address: the window and the offset, or none where it raises UnmappedAccess
(40_decode.md R110, R117). The size takes no part (R112). -/
def resolveAddr (a : Addr) : Option (Window × Nat) := resolveIn windowTable a.toNat

/-- The conditions of 40_decode.md R121 on one window. -/
def windowShapeValid (w : Window) : Bool :=
  1 ≤ w.size && w.size ≤ w.period && w.base ≤ w.last && w.last ≤ addrMax && w.size ≤ w.last - w.base + 1

/-- No address matches both windows (40_decode.md R121): every address of the two spans' overlap is tried. -/
def windowsApart (w v : Window) : Bool :=
  let lo := max w.base v.base
  (List.range (min w.last v.last + 1 - lo)).all
    (fun k => !(windowMatches w (lo + k) && windowMatches v (lo + k)))

/-- Every window of the list is apart from every later one. -/
def allApart : List Window → Bool
  | [] => true
  | w :: rest => rest.all (fun v => windowsApart w v) && allApart rest

/-- `Valid(WindowTable)` (40_decode.md R121). -/
def windowTableValid (table : List Window) : Bool := table.all windowShapeValid && allApart table

/-- How many wires reach a destination. -/
def wiresTo (wires : List Wire) (d : LineDest) : Nat := (wires.filter (fun x => x.dest == d)).length

/-- No two wires of the list lead from one source to two destinations of the same kind. -/
def oneDestPerKind : List Wire → Bool
  | [] => true
  | x :: rest => rest.all (fun y => !(x.src == y.src && x.dest.sameKind y.dest)) && oneDestPerKind rest

/-- `Valid(Wiring)` (44_board_wiring.md R217): each of the levels 5, 6 and 7 has exactly one source, no
source drives two destinations of the same kind, each serial clock input has exactly one source. -/
def wiringValid (wires : List Wire) : Bool :=
  [irqSerial, irqTimer2, irqTimer3].all (fun l => wiresTo wires (.irq l) == 1) &&
    oneDestPerKind wires &&
    [Chan.A, Chan.B].all (fun ch => wiresTo wires (.serialClk ch) == 1)

end Sys2Proof.Machine
end

