-- ==== Sys2Proof/WellFormed.lean ====
section
/-! DEFINITION. The well-formed operations: those whose operands an admitted record can carry. -/

namespace Sys2Proof

open Machine

/-- The size of a write's data (30_encoding.md R81). -/
def WData.size : WData → Size
  | .byte _ => .byte
  | .word _ => .word

/-- A word cycle needs an even address (20_memory.md R56); `odd` is bit 0 of the address. -/
def Size.aligned (size : Size) (odd : Bool) : Bool :=
  match size with
  | .byte => true
  | .word => !odd

/-- The image lengths to which the spec gives a CONSTRUCT a meaning: a short bank 0 (an error,
44_board_wiring.md R216) or two whole banks (10_state.md R26). -/
def imagesAdmitted (rom0 rom1 : List Byte) : Bool :=
  rom0.length < bootCopyLen || (rom0.length == romBankSize && rom1.length == romBankSize)

/-- The well-formed operations; an unmapped cycle is one whose address no window matches (30_encoding.md R91). -/
def Instr.wf : Instr → Bool
  | .rdRam size off => size.aligned off[0]
  | .wrRam off d => d.size.aligned off[0]
  | .rdRom0 size off => size.aligned off[0]
  | .wrRom0 off d => d.size.aligned off[0]
  | .rdRom1 size off => size.aligned off[0]
  | .wrRom1 off d => d.size.aligned off[0]
  | .rdSerial size off => size.aligned off[0]
  | .wrSerial off d => d.size.aligned off[0]
  | .rdTimer size off => size.aligned off[0]
  | .wrTimer off d => d.size.aligned off[0]
  | .rdPagemap size off => size.aligned off[0]
  | .wrPagemap off d => d.size.aligned off[0]
  | .rdSegmap size off => size.aligned off[0]
  | .wrSegmap off d => d.size.aligned off[0]
  | .rdSwitch size off => size.aligned off[0]
  | .wrSwitch off d => d.size.aligned off[0]
  | .rdUnmapped size a => size.aligned a[0] && (resolveAddr a).isNone
  | .wrUnmapped a d => d.size.aligned a[0] && (resolveAddr a).isNone
  | .setlineSerInt _ => true
  | .setlineTmrOut1 _ => true
  | .setlineTmrOut2 _ => true
  | .setlineTmrOut3 _ => true
  | .setlineTmrOut4 _ => true
  | .setlineTmrOut5 _ => true
  | .reset => true
  | .construct rom0 rom1 => imagesAdmitted rom0 rom1
  | .resolve addr size => size.aligned addr[0]

end Sys2Proof
end

