-- ==== Sys2Proof/Machine/Operands.lean ====
section
/-! DEFINITION. The operand forms of a bus cycle: lane masks, the assembly of the bus word, the choice of
the response, word offsets and register numbers (20_memory.md R55, 30_encoding.md R84, R85). -/

namespace Sys2Proof.Machine

/-- `Lanes(size, a)` (20_memory.md R55); `odd` is `a[0]`. This is the one place where the byte order counts
(the spec's decision D1; log 1): every other rule takes a byte's lane from here. -/
def lanes (size : Size) (odd : Bool) : BusWord :=
  match size, byteOrder, odd with
  | .word, _, _ => bothLanes
  | .byte, .bigEndian, false => upperLane
  | .byte, .bigEndian, true => lowerLane
  | .byte, .littleEndian, false => lowerLane
  | .byte, .littleEndian, true => upperLane

/-- The lane of the bytes at even addresses. -/
abbrev evenLane : BusWord := lanes .byte false

/-- The lane of the bytes at odd addresses. -/
abbrev oddLane : BusWord := lanes .byte true

/-- The lane mask `l` takes in some line of the mask `m`. -/
def takesIn (l m : BusWord) : Bool := l &&& m != 0

/-- The cycle takes in the upper lane. -/
def onUpper (l : BusWord) : Bool := takesIn l upperLane

/-- The cycle takes in the lower lane. -/
def onLower (l : BusWord) : Bool := takesIn l lowerLane

/-- The byte a bus word carries on its upper lane. -/
def upperByte (b : BusWord) : Byte := b.extractLsb' byteWidth byteWidth

/-- The byte a bus word carries on its lower lane. -/
def lowerByte (b : BusWord) : Byte := b.extractLsb' 0 byteWidth

/-- The byte a bus word carries on the one lane of the mask `m`. -/
def laneByte (m b : BusWord) : Byte := if onUpper m then upperByte b else lowerByte b

/-- The bus word with the byte `v` on the one lane of the mask `m` and `u` on the other. -/
def joinLanes (m : BusWord) (v u : Byte) : BusWord := if onUpper m then v ++ u else u ++ v

/-- The bus word of a write (30_encoding.md R85): a byte on its lane, zeros on the other. -/
def busWord (d : WData) (odd : Bool) : BusWord :=
  match d with
  | .word v => v
  | .byte v => joinLanes (lanes .byte odd) v 0

/-- The response of a read from the handler's bus word (30_encoding.md R85). -/
def laneResponse (size : Size) (odd : Bool) (b : BusWord) : Response :=
  match size with
  | .word => .word b
  | .byte => .byte (laneByte (lanes .byte odd) b)

/-- `wo = off & ~1`, the offset of the 16-bit word (41_window_access.md R130). -/
def wordOffset {n : Nat} (off : BitVec n) : Nat := off.toNat / 2 * 2

/-- `reg = off[2:1]`, a register of the serial chip (30_encoding.md R84). -/
def serialReg (off : BitVec serialOffWidth) : BitVec 2 := off.extractLsb' 1 2

/-- `reg = off[1]`, a register of the timer chip (30_encoding.md R84). -/
def timerReg (off : BitVec timerOffWidth) : BitVec 1 := off.extractLsb' 1 1

end Sys2Proof.Machine
end

