-- ==== Sys2Proof/Machine/Ops.lean ====
section
/-! DEFINITION. The shared operations over the state: storage cells, responses and errors, the output
trace, free values, the interrupt router's lines, the calls into the two chips, and the common part of
every bus cycle. -/

namespace Sys2Proof.Machine

/-! ## Storage -/

/-- The byte written at an index, or none where the cell has not been written since construction. -/
def Memory.read : Memory → Nat → Option Byte
  | [], _ => none
  | (k, v) :: m, i => if k = i then some v else Memory.read m i

/-- Writing a cell, keeping the indices strictly rising. -/
def Memory.write : Memory → Nat → Byte → Memory
  | [], i, v => [(i, v)]
  | (k, w) :: m, i, v =>
    if i < k then (i, v) :: (k, w) :: m
    else if i = k then (i, v) :: m
    else (k, w) :: Memory.write m i v

/-- The array behind a writable window. -/
def State.mem (s : State) : Store → Memory
  | .ram => s.ram
  | .pagemap => s.pagemap
  | .segmap => s.segmap

/-- Replacing the array behind a writable window. -/
def State.setMem (s : State) (st : Store) (m : Memory) : State :=
  match st with
  | .ram => { s with ram := m }
  | .pagemap => { s with pagemap := m }
  | .segmap => { s with segmap := m }

/-- `M[i]` of a writable array: the byte last written there, else the cell's power-on value (20_memory.md
R65, 10_state.md R24, R27). -/
def State.cell (s : State) (st : Store) (i : Nat) : Byte :=
  (Memory.read (s.mem st) i).getD (Config.powerOnMem st i)

/-- `M[i] <- v`. -/
def State.setCell (s : State) (st : Store) (i : Nat) (v : Byte) : State :=
  s.setMem st (Memory.write (s.mem st) i v)

/-- The image of a ROM bank. -/
def State.image (s : State) : Bank → List Byte
  | .rom0 => s.rom0
  | .rom1 => s.rom1

/-- `ROM0[i]`, `ROM1[i]` (10_state.md R25). -/
def State.romCell (s : State) (b : Bank) (i : Nat) : Byte := romByte b (s.image b) i

/-- `StoreRead(M, wo, L)` (41_window_access.md R138): the word at `wo`, each byte on the lane of its address. -/
def storeRead (m : Nat → Byte) (wo : Nat) : BusWord := joinLanes evenLane (m wo) (m (wo + 1))

/-- `StoreWrite(M, wo, B, L)` (41_window_access.md R139): the lanes taken in are stored. -/
def State.storeWrite (s : State) (st : Store) (wo : Nat) (b l : BusWord) : State :=
  let s1 := if takesIn l evenLane then s.setCell st wo (laneByte evenLane b) else s
  if takesIn l oddLane then s1.setCell st (wo + 1) (laneByte oddLane b) else s1

/-! ## Responses, errors, the output trace -/

/-- What the operation returns to its caller. -/
def State.respond (s : State) (r : Response) : State := { s with resp := r }

/-- `raise E(info)` (60_exceptions.md R240): the operation ends, the caller gets the error, no state
changes. There is no trap entry (R249) and no trap return (R251) beside it. -/
def State.raise (s : State) (e : BoardError) : Host.Outcome State Fault Refusal :=
  .next (s.respond (.error e))

/-- `Emit(e)` (10_state.md R33). -/
def State.emit (s : State) (e : OutEvent) : State := { s with out := s.out ++ [e] }

/-! ## Free values -/

/-- One more free value has been drawn. -/
def State.drawn (s : State) : State := { s with draws := s.draws + 1 }

/-- `UNSPEC8()` (41_window_access.md R141): a fresh draw. -/
def State.unspec8 (s : State) : Byte × State := (Config.unspec8 s.draws, s.drawn)

/-! ## The serial chip's interrupt line -/

/-- SETLINE SER_INT (42_interrupt_router.md R181, R185). -/
def State.setSerInt (s : State) (level : Bool) : State :=
  if s.serint = level then s
  else { s with serint := level, irq5 := level }.emit (.cpuIrq irqSerial level)

/-! ## Calls into the serial chip -/

/-- A call into one of the two chips is recorded. -/
def State.logCall (s : State) (c : DevCall) : State := { s with calls := s.calls ++ [c] }

/-- The serial collaborator's answer to the call `c`: the next listed one, else a free one (log 7). -/
def State.serialAnswer (s : State) (c : DevCall) : SerialAnswer :=
  s.serialAnswers.head?.getD (Config.serialAnswer s.draws (s.calls ++ [c]))

/-- The call `c` is made: it is recorded, and one answer is used up. -/
def State.askSerial (s : State) (c : DevCall) : State :=
  { s.logCall c with serialAnswers := s.serialAnswers.tail, draws := s.draws + 1 }

/-- A call into the serial collaborator, with the SETLINEs it makes before returning (20_memory.md R68). -/
def State.callSerial (s : State) (c : DevCall) : State :=
  (s.serialAnswer c).ints.foldl State.setSerInt (s.askSerial c)

/-! ## The timer chip's output lines -/

/-- SETLINE TMR_OUT1 (42_interrupt_router.md R184): no destination, no effect. -/
def State.setTmrOut1 (s : State) (_level : Bool) : State := s

/-- SETLINE TMR_OUT2 (42_interrupt_router.md R182, R185). -/
def State.setTmrOut2 (s : State) (level : Bool) : State :=
  if s.tout2 = level then s
  else { s with tout2 := level, irq6 := level }.emit (.cpuIrq irqTimer2 level)

/-- SETLINE TMR_OUT3 (42_interrupt_router.md R183, R185). -/
def State.setTmrOut3 (s : State) (level : Bool) : State :=
  if s.tout3 = level then s
  else { s with tout3 := level, irq7 := level }.emit (.cpuIrq irqTimer3 level)

/-- SETLINE TMR_OUT4 (44_board_wiring.md R221): the clock event first, then the call (R223). -/
def State.setTmrOut4 (s : State) (level : Bool) : State :=
  if s.tout4 = level then s
  else ({ s with tout4 := level }.emit (.serialClk .A level)).callSerial (.serialClk .A level)

/-- SETLINE TMR_OUT5 (44_board_wiring.md R222). -/
def State.setTmrOut5 (s : State) (level : Bool) : State :=
  if s.tout5 = level then s
  else ({ s with tout5 := level }.emit (.serialClk .B level)).callSerial (.serialClk .B level)

/-- SETLINE of a timer output (42_interrupt_router.md R180). -/
def State.setTimerOut (s : State) (ch : TimerOut) (level : Bool) : State :=
  match ch with
  | .out1 => s.setTmrOut1 level
  | .out2 => s.setTmrOut2 level
  | .out3 => s.setTmrOut3 level
  | .out4 => s.setTmrOut4 level
  | .out5 => s.setTmrOut5 level

/-! ## Calls into the timer chip -/

/-- The timer collaborator's answer to the call `c`: the next listed one, else a free one (log 7). -/
def State.timerAnswer (s : State) (c : DevCall) : TimerAnswer :=
  s.timerAnswers.head?.getD (Config.timerAnswer s.draws (s.calls ++ [c]))

/-- The call `c` is made: it is recorded, and one answer is used up. -/
def State.askTimer (s : State) (c : DevCall) : State :=
  { s.logCall c with timerAnswers := s.timerAnswers.tail, draws := s.draws + 1 }

/-- A register access of the timer collaborator, with the SETLINEs it makes before returning
(20_memory.md R68). -/
def State.callTimer (s : State) (c : DevCall) : State :=
  (s.timerAnswer c).outs.foldl (fun t x => t.setTimerOut x.1 x.2) (s.askTimer c)

/-! ## The common part of every operation -/

/-- `IrqOut(l)`, the level on the processor's level-`l` input (42_interrupt_router.md R188). -/
def State.irqOut (s : State) (l : Nat) : Bool :=
  if l = irqSerial then s.irq5 else if l = irqTimer2 then s.irq6 else if l = irqTimer3 then s.irq7 else false

/-- The last level a source drove (10_state.md R30); timer output 1 has no record. -/
def State.lineLevel (s : State) : LineSrc → Option Bool
  | .serInt => some s.serint
  | .tmrOut1 => none
  | .tmrOut2 => some s.tout2
  | .tmrOut3 => some s.tout3
  | .tmrOut4 => some s.tout4
  | .tmrOut5 => some s.tout5

/-- A bus cycle is admitted (70_reset_and_hazards.md R276). -/
def State.admitsBus (s : State) : Bool := s.phase == .running

/-- SETLINE and RESET are admitted (70_reset_and_hazards.md R276). -/
def State.admitsLine (s : State) : Bool := s.phase == .built || s.phase == .running

/-- The frame of every bus cycle (41_window_access.md R130, R131): admitted in the phase, aligned. -/
def busCycle (size : Size) (odd : Bool) (s : State) (k : Host.Outcome State Fault Refusal) :
    Host.Outcome State Fault Refusal :=
  if s.admitsBus then
    if size.aligned odd then k else .refused .oddWord
  else .refused (.notAdmitted s.phase)

/-- `BusRead` once the window is chosen (41_window_access.md R130): the handler is called once with the
lane mask and gives the bus word and the state after it. -/
def busRead (size : Size) (odd : Bool) (handler : BusWord → State → BusWord × State) (s : State) :
    Host.Outcome State Fault Refusal :=
  busCycle size odd s
    (let r := handler (lanes size odd) s
     .next (r.2.respond (laneResponse size odd r.1)))

/-- `BusWrite` once the window is chosen (41_window_access.md R131). -/
def busWrite (d : WData) (odd : Bool) (handler : BusWord → BusWord → State → State) (s : State) :
    Host.Outcome State Fault Refusal :=
  busCycle d.size odd s (.next ((handler (busWord d odd) (lanes d.size odd) s).respond .done))

/-- A SETLINE operation (42_interrupt_router.md R180): admitted in the phases built and running. -/
def lineOp (f : State → State) (s : State) : Host.Outcome State Fault Refusal :=
  if s.admitsLine then .next ((f s).respond .done) else .refused (.notAdmitted s.phase)

end Sys2Proof.Machine
end

