-- ==== Sys2Proof/Machine/DeviceWindows.lean ====
section
/-! DEFINITION. Bus cycles of the serial chip's and the timer chip's windows (41_window_access.md sections
4 and 5). -/

namespace Sys2Proof.Machine

/-- The chip's byte of a SERIAL read (41_window_access.md R140): one device read where the chip's lane is
asked for, else an unused draw without a device access (log 11). -/
def serialByte (off : BitVec serialOffWidth) (l : BusWord) (s : State) : Byte × State :=
  let c := DevCall.serialRead (serialReg off)
  if takesIn l serialLanes then ((s.serialAnswer c).data, s.callSerial c) else s.unspec8

/-- `SERIAL.Read` (41_window_access.md R140): nothing drives the other lane. -/
def readSerial (off : BitVec serialOffWidth) (l : BusWord) (s : State) : BusWord × State :=
  let chip := serialByte off l s
  let other := chip.2.unspec8
  (joinLanes serialLanes chip.1 other.1, other.2)

/-- `SERIAL.Write` (41_window_access.md R142): the other lane goes nowhere. -/
def writeSerial (off : BitVec serialOffWidth) (b l : BusWord) (s : State) : State :=
  if takesIn l serialLanes then s.callSerial (.serialWrite (serialReg off) (laneByte serialLanes b)) else s

/-- `TIMER.Read` (41_window_access.md R144): one device read with the cycle's lane mask. -/
def readTimer (off : BitVec timerOffWidth) (l : BusWord) (s : State) : BusWord × State :=
  let c := DevCall.timerRead (timerReg off) l
  ((s.timerAnswer c).data, s.callTimer c)

/-- `TIMER.Write` (41_window_access.md R146): one device write with the cycle's lane mask. -/
def writeTimer (off : BitVec timerOffWidth) (b l : BusWord) (s : State) : State :=
  s.callTimer (.timerWrite (timerReg off) b l)

/-- RD.SERIAL (41_window_access.md R140). -/
def execRdSerial (size : Size) (off : BitVec serialOffWidth) (s : State) : Host.Outcome State Fault Refusal :=
  busRead size off[0] (readSerial off) s

/-- WR.SERIAL (41_window_access.md R142). -/
def execWrSerial (off : BitVec serialOffWidth) (d : WData) (s : State) : Host.Outcome State Fault Refusal :=
  busWrite d off[0] (writeSerial off) s

/-- RD.TIMER (41_window_access.md R144). -/
def execRdTimer (size : Size) (off : BitVec timerOffWidth) (s : State) : Host.Outcome State Fault Refusal :=
  busRead size off[0] (readTimer off) s

/-- WR.TIMER (41_window_access.md R146). -/
def execWrTimer (off : BitVec timerOffWidth) (d : WData) (s : State) : Host.Outcome State Fault Refusal :=
  busWrite d off[0] (writeTimer off) s

end Sys2Proof.Machine
end

