-- ==== Sys2Proof/Machine/Lines.lean ====
section
/-! DEFINITION. SETLINE, one meaning per source line (42_interrupt_router.md R181 to R184,
44_board_wiring.md R221, R222). -/

namespace Sys2Proof.Machine

/-- SETLINE.SER_INT (42_interrupt_router.md R181). -/
def execSetlineSerInt (level : Bool) (s : State) : Host.Outcome State Fault Refusal :=
  lineOp (fun t => t.setSerInt level) s

/-- SETLINE.TMR_OUT1 (42_interrupt_router.md R184). -/
def execSetlineTmrOut1 (level : Bool) (s : State) : Host.Outcome State Fault Refusal :=
  lineOp (fun t => t.setTmrOut1 level) s

/-- SETLINE.TMR_OUT2 (42_interrupt_router.md R182). -/
def execSetlineTmrOut2 (level : Bool) (s : State) : Host.Outcome State Fault Refusal :=
  lineOp (fun t => t.setTmrOut2 level) s

/-- SETLINE.TMR_OUT3 (42_interrupt_router.md R183). -/
def execSetlineTmrOut3 (level : Bool) (s : State) : Host.Outcome State Fault Refusal :=
  lineOp (fun t => t.setTmrOut3 level) s

/-- SETLINE.TMR_OUT4 (44_board_wiring.md R221). -/
def execSetlineTmrOut4 (level : Bool) (s : State) : Host.Outcome State Fault Refusal :=
  lineOp (fun t => t.setTmrOut4 level) s

/-- SETLINE.TMR_OUT5 (44_board_wiring.md R222). -/
def execSetlineTmrOut5 (level : Bool) (s : State) : Host.Outcome State Fault Refusal :=
  lineOp (fun t => t.setTmrOut5 level) s

end Sys2Proof.Machine
end

