-- ==== Sys2Proof/Machine/Storage.lean ====
section
/-! DEFINITION. Bus cycles of the storage windows: RAM, the ROM banks, the page map and segment map stubs
(41_window_access.md sections 2, 3, 6). -/

namespace Sys2Proof.Machine

/-- The read handler of a writable storage window (41_window_access.md R138); it changes no state. -/
def readStore (st : Store) (wo : Nat) (_l : BusWord) (s : State) : BusWord × State :=
  (storeRead (s.cell st) wo, s)

/-- The read handler of a ROM window (41_window_access.md R134, R136). -/
def readBank (b : Bank) (wo : Nat) (_l : BusWord) (s : State) : BusWord × State :=
  (storeRead (s.romCell b) wo, s)

/-- The write handler of a writable storage window (41_window_access.md R139). -/
def writeStore (st : Store) (wo : Nat) (b l : BusWord) (s : State) : State := s.storeWrite st wo b l

/-- The write handler of a read-only window: accepted and dropped (41_window_access.md R135, R137, R153). -/
def dropWrite (_b _l : BusWord) (s : State) : State := s

/-- RD.RAM (41_window_access.md R132). -/
def execRdRam (size : Size) (off : BitVec ramOffWidth) (s : State) : Host.Outcome State Fault Refusal :=
  busRead size off[0] (readStore .ram (wordOffset off)) s

/-- WR.RAM (41_window_access.md R133). -/
def execWrRam (off : BitVec ramOffWidth) (d : WData) (s : State) : Host.Outcome State Fault Refusal :=
  busWrite d off[0] (writeStore .ram (wordOffset off)) s

/-- RD.ROM0 (41_window_access.md R134). -/
def execRdRom0 (size : Size) (off : BitVec romOffWidth) (s : State) : Host.Outcome State Fault Refusal :=
  busRead size off[0] (readBank .rom0 (wordOffset off)) s

/-- WR.ROM0 (41_window_access.md R135). -/
def execWrRom0 (off : BitVec romOffWidth) (d : WData) (s : State) : Host.Outcome State Fault Refusal :=
  busWrite d off[0] dropWrite s

/-- RD.ROM1 (41_window_access.md R136). -/
def execRdRom1 (size : Size) (off : BitVec romOffWidth) (s : State) : Host.Outcome State Fault Refusal :=
  busRead size off[0] (readBank .rom1 (wordOffset off)) s

/-- WR.ROM1 (41_window_access.md R137). -/
def execWrRom1 (off : BitVec romOffWidth) (d : WData) (s : State) : Host.Outcome State Fault Refusal :=
  busWrite d off[0] dropWrite s

/-- RD.PAGEMAP (41_window_access.md R148). -/
def execRdPagemap (size : Size) (off : BitVec pagemapOffWidth) (s : State) : Host.Outcome State Fault Refusal :=
  busRead size off[0] (readStore .pagemap (wordOffset off)) s

/-- WR.PAGEMAP (41_window_access.md R149). -/
def execWrPagemap (off : BitVec pagemapOffWidth) (d : WData) (s : State) : Host.Outcome State Fault Refusal :=
  busWrite d off[0] (writeStore .pagemap (wordOffset off)) s

/-- RD.SEGMAP (41_window_access.md R150). -/
def execRdSegmap (size : Size) (off : BitVec segmapOffWidth) (s : State) : Host.Outcome State Fault Refusal :=
  busRead size off[0] (readStore .segmap (wordOffset off)) s

/-- WR.SEGMAP (41_window_access.md R151). -/
def execWrSegmap (off : BitVec segmapOffWidth) (d : WData) (s : State) : Host.Outcome State Fault Refusal :=
  busWrite d off[0] (writeStore .segmap (wordOffset off)) s

end Sys2Proof.Machine
end

