-- ==== Sys2Proof/Machine/SwitchAndUnmapped.lean ====
section
/-! DEFINITION. Bus cycles of the switch register and at unmapped addresses (41_window_access.md sections
7 and 8). -/

namespace Sys2Proof.Machine

/-- `SWITCH.Read` (41_window_access.md R152): the constant, whatever the offset. -/
def readSwitch (_l : BusWord) (s : State) : BusWord × State := (switchValue, s)

/-- `SWITCH.Write` (41_window_access.md R153): accepted and ignored. -/
def writeSwitch (_b _l : BusWord) (s : State) : State := s

/-- A cycle at an address that no window matches raises UnmappedAccess and does nothing else
(41_window_access.md R154, R155). -/
def unmappedCycle (size : Size) (a : Addr) (s : State) : Host.Outcome State Fault Refusal :=
  busCycle size a[0] s
    (match resolveAddr a with
     | none => s.raise (.unmappedAccess a)
     | some _ => .refused (.mappedAddress a))

/-- RD.SWITCH (41_window_access.md R152). -/
def execRdSwitch (size : Size) (off : BitVec switchOffWidth) (s : State) : Host.Outcome State Fault Refusal :=
  busRead size off[0] readSwitch s

/-- WR.SWITCH (41_window_access.md R153). -/
def execWrSwitch (off : BitVec switchOffWidth) (d : WData) (s : State) : Host.Outcome State Fault Refusal :=
  busWrite d off[0] writeSwitch s

/-- RD.UNMAPPED (41_window_access.md R154). -/
def execRdUnmapped (size : Size) (a : Addr) (s : State) : Host.Outcome State Fault Refusal :=
  unmappedCycle size a s

/-- WR.UNMAPPED (41_window_access.md R155): the data is discarded. -/
def execWrUnmapped (a : Addr) (d : WData) (s : State) : Host.Outcome State Fault Refusal :=
  unmappedCycle d.size a s

end Sys2Proof.Machine
end

