-- ==== Sys2Proof/Decode.lean ====
section
/-! DEFINITION. The decoder, from an operation record to an operation or a named rejection, by the
mask and match rows of 30_encoding.md R89; and after it the encoder, from the field table of R82. -/

namespace Sys2Proof

open Machine

/-- `Mask24(A) = A[23:0]` (40_decode.md R111). -/
def mask24 (addr : AddrIn) : Addr := addr.setWidth addrWidth

/-- A BUS row of the decode map: it matches when `a & mask = pattern`; `window` is `none` on the
catch-all row (30_encoding.md R89). -/
structure BusRow where
  mask : Addr
  pattern : Addr
  window : Option WindowName
  deriving DecidableEq, Repr

/-- The mask and match row of a window (30_encoding.md R83, R90, where sizes and periods are powers of two and
the base is a multiple of the span): the mask tests the bits above the span and, in
the offset, the bits between the size and the period; the pattern is the base. -/
def windowRow (w : Window) : BusRow :=
  { mask := BitVec.ofNat addrWidth (2 ^ addrWidth - (w.last + 1 - w.base)) |||
      BitVec.ofNat addrWidth (w.period - w.size)
    pattern := BitVec.ofNat addrWidth w.base
    window := some w.name }

/-- The nine priorities of 30_encoding.md R89, in ascending order: the eight windows, then the catch-all row.
`busRows_eq` (Laws/Decoder.lean) shows that they are the rows R89 prints. -/
def busRows : List BusRow := windowTable.map windowRow ++ [⟨0, 0, none⟩]

/-- A row matches the masked address. -/
def BusRow.hits (row : BusRow) (a : Addr) : Bool := a &&& row.mask == row.pattern

/-- The window of the first row that matches; the catch-all row has none (30_encoding.md R89). -/
def decodeWindow (a : Addr) : Option WindowName :=
  (busRows.find? (fun row => row.hits a)).bind (·.window)

/-- The size field of a record (30_encoding.md R81). -/
def Size.bits : Size → Nat
  | .byte => byteWidth
  | .word => dataWidth

/-- The sizes of 30_encoding.md R81; any other is refused (R93). -/
def decodeSize (size : Nat) : Option Size :=
  if size ∈ accessSizes then [Size.byte, .word].find? (fun z => z.bits == size) else none

/-- A read of the window that `a` decodes to, its offset taken from `a` by 30_encoding.md R82. -/
def decodeRead (size : Size) (a : Addr) : Instr :=
  match decodeWindow a with
  | some .ram => .rdRam size (a.extractLsb' 0 ramOffWidth)
  | some .rom0 => .rdRom0 size (a.extractLsb' 0 romOffWidth)
  | some .rom1 => .rdRom1 size (a.extractLsb' 0 romOffWidth)
  | some .serial => .rdSerial size (a.extractLsb' 0 serialOffWidth)
  | some .timer => .rdTimer size (a.extractLsb' 0 timerOffWidth)
  | some .pagemap => .rdPagemap size (a.extractLsb' 0 pagemapOffWidth)
  | some .segmap => .rdSegmap size (a.extractLsb' 0 segmapOffWidth)
  | some .switch => .rdSwitch size (a.extractLsb' 0 switchOffWidth)
  | none => .rdUnmapped size a

/-- A write to the window that `a` decodes to. -/
def decodeWrite (d : WData) (a : Addr) : Instr :=
  match decodeWindow a with
  | some .ram => .wrRam (a.extractLsb' 0 ramOffWidth) d
  | some .rom0 => .wrRom0 (a.extractLsb' 0 romOffWidth) d
  | some .rom1 => .wrRom1 (a.extractLsb' 0 romOffWidth) d
  | some .serial => .wrSerial (a.extractLsb' 0 serialOffWidth) d
  | some .timer => .wrTimer (a.extractLsb' 0 timerOffWidth) d
  | some .pagemap => .wrPagemap (a.extractLsb' 0 pagemapOffWidth) d
  | some .segmap => .wrSegmap (a.extractLsb' 0 segmapOffWidth) d
  | some .switch => .wrSwitch (a.extractLsb' 0 switchOffWidth) d
  | none => .wrUnmapped a d

/-- The write data of a cycle of this size: 16 bits, or `D[7:0]` (log 32). -/
def writeData (size : Size) (data : BusWord) : WData :=
  match size with
  | .byte => .byte (data.extractLsb' 0 byteWidth)
  | .word => .word data

/-- The admitted size of a record at masked address `a`, or the rejection of 30_encoding.md R93. -/
def admitSize (size : Nat) (a : Addr) : Except Reject Size :=
  match decodeSize size with
  | none => .error (.badSize size)
  | some sz => if sz.aligned a[0] then .ok sz else .error (.oddWord a)

/-- A SETLINE by its source code (30_encoding.md R86); codes 6 and 7 name no source. -/
def decodeLine (src : BitVec 3) (level : Bool) : Except Reject Instr :=
  if src = 0 then .ok (.setlineSerInt level)
  else if src = 1 then .ok (.setlineTmrOut1 level)
  else if src = 2 then .ok (.setlineTmrOut2 level)
  else if src = 3 then .ok (.setlineTmrOut3 level)
  else if src = 4 then .ok (.setlineTmrOut4 level)
  else if src = 5 then .ok (.setlineTmrOut5 level)
  else .error (.noSuchLine src)

/-- The decoder: total, and a record it gives no operation is rejected by name. -/
def decode : Request → Except Reject Instr
  | .bus .read size addr _ => (admitSize size (mask24 addr)).map (fun sz => decodeRead sz (mask24 addr))
  | .bus .write size addr data =>
    (admitSize size (mask24 addr)).map (fun sz => decodeWrite (writeData sz data) (mask24 addr))
  | .line src level => decodeLine src level
  | .reset => .ok .reset
  | .construct rom0 rom1 => .ok (.construct rom0 rom1)
  | .query addr size => (admitSize size (mask24 addr)).map (fun sz => .resolve addr sz)

/-- The data field of a write record (log 32). -/
def WData.field : WData → BusWord
  | .byte d => d.setWidth dataWidth
  | .word d => d

/-- The address of offset `off` in the first image of the window based at `base` (30_encoding.md R82). -/
def encodeAddr (base : Nat) {n : Nat} (off : BitVec n) : AddrIn :=
  BitVec.ofNat addrInWidth base ||| off.setWidth addrInWidth

/-- A read record at an address. -/
def encodeRead (size : Size) (addr : AddrIn) : Request := .bus .read size.bits addr 0

/-- A write record at an address. -/
def encodeWrite (d : WData) (addr : AddrIn) : Request := .bus .write d.size.bits addr d.field

/-- The encoder: the record of an operation, with every ignored bit zero (30_encoding.md R82, R86, R92). -/
def encode : Instr → Request
  | .rdRam size off => encodeRead size (encodeAddr ramBase off)
  | .wrRam off d => encodeWrite d (encodeAddr ramBase off)
  | .rdRom0 size off => encodeRead size (encodeAddr rom0Base off)
  | .wrRom0 off d => encodeWrite d (encodeAddr rom0Base off)
  | .rdRom1 size off => encodeRead size (encodeAddr rom1Base off)
  | .wrRom1 off d => encodeWrite d (encodeAddr rom1Base off)
  | .rdSerial size off => encodeRead size (encodeAddr serialBase off)
  | .wrSerial off d => encodeWrite d (encodeAddr serialBase off)
  | .rdTimer size off => encodeRead size (encodeAddr timerBase off)
  | .wrTimer off d => encodeWrite d (encodeAddr timerBase off)
  | .rdPagemap size off => encodeRead size (encodeAddr pagemapBase off)
  | .wrPagemap off d => encodeWrite d (encodeAddr pagemapBase off)
  | .rdSegmap size off => encodeRead size (encodeAddr segmapBase off)
  | .wrSegmap off d => encodeWrite d (encodeAddr segmapBase off)
  | .rdSwitch size off => encodeRead size (encodeAddr switchBase off)
  | .wrSwitch off d => encodeWrite d (encodeAddr switchBase off)
  | .rdUnmapped size a => encodeRead size (encodeAddr 0 a)
  | .wrUnmapped a d => encodeWrite d (encodeAddr 0 a)
  | .setlineSerInt level => .line 0 level
  | .setlineTmrOut1 level => .line 1 level
  | .setlineTmrOut2 level => .line 2 level
  | .setlineTmrOut3 level => .line 3 level
  | .setlineTmrOut4 level => .line 4 level
  | .setlineTmrOut5 level => .line 5 level
  | .reset => .reset
  | .construct rom0 rom1 => .construct rom0 rom1
  | .resolve addr size => .query addr size.bits

/-- The record that a word of spec/opcode_table.json stands for, every field that the table gives no bits
at zero (log 2). A word of more than 8 bits is a BUS row's masked address: a read (`rw` is 0) of 8 bits.
A word of 1 to 8 bits is a LINE row's: the source code in bits 2:0, the level in bit 3. A word of no bits
is the one operation without operands, RESET. -/
def tableRequest (nbits w : Nat) : Request :=
  if nbits = 0 then .reset
  else if nbits ≤ 8 then .line (BitVec.ofNat 3 w) (w.testBit 3)
  else .bus .read Size.byte.bits (BitVec.ofNat addrInWidth w) 0

/-- The operation the decoder reads from a word of spec/opcode_table.json. -/
def decodeTableWord (nbits w : Nat) : Option Instr :=
  match decode (tableRequest nbits w) with
  | .ok i => some i
  | .error _ => none

end Sys2Proof
end

