-- ==== Sys2Proof/Machine/System.lean ====
section
/-! DEFINITION. RESET (43_boot_sequencer.md), CONSTRUCT (44_board_wiring.md) and RESOLVE (40_decode.md). -/

namespace Sys2Proof.Machine

/-- The copy of RESET (43_boot_sequencer.md R201): bytes 0 to 7 of ROM bank 0 into RAM, directly (R208). -/
def State.bootCopy (s : State) : State :=
  (List.range bootCopyLen).foldl (fun t i => t.setCell .ram i (s.romCell .rom0 i)) s

/-- RESET (43_boot_sequencer.md R200): the copy, then the processor's reset signal (R207). -/
def execReset (s : State) : Host.Outcome State Fault Refusal :=
  if s.admitsLine then
    .next ({ s.bootCopy.emit .cpuReset with phase := .running }.respond .done)
  else .refused (.notAdmitted s.phase)

/-- The board after a successful CONSTRUCT (44_board_wiring.md R215, R218, R219). -/
def State.built (s : State) (rom0 rom1 : List Byte) : State :=
  { s with
    ram := [], pagemap := [], segmap := [], rom0 := rom0, rom1 := rom1,
    serint := lineInit, tout2 := lineInit, tout3 := lineInit, tout4 := lineInit, tout5 := lineInit,
    irq5 := lineInit, irq6 := lineInit, irq7 := lineInit,
    phase := .built, out := pinEvents, calls := s.calls ++ pinCalls }

/-- CONSTRUCT (44_board_wiring.md R215), its checks in the order of R232. -/
def execConstruct (rom0 rom1 : List Byte) (s : State) : Host.Outcome State Fault Refusal :=
  if s.phase = .unbuilt then
    if rom0.length < bootCopyLen then s.raise .malformedRomImage
    else if rom0.length = romBankSize ∧ rom1.length = romBankSize then
      if windowTableValid windowTable && wiringValid wiring then .next ((s.built rom0 rom1).respond .done)
      else s.raise .invalidWireConfiguration
    else .refused (.romLength rom0.length rom1.length)
  else .refused (.notAdmitted s.phase)

/-- RESOLVE as a bare query (40_decode.md R110), admitted in every phase (70_reset_and_hazards.md R276). -/
def execResolve (addr : AddrIn) (size : Size) (s : State) : Host.Outcome State Fault Refusal :=
  if size.aligned (mask24 addr)[0] then
    match resolveAddr (mask24 addr) with
    | some (w, off) => .next (s.respond (.resolved w.name off))
    | none => s.raise (.unmappedAccess (mask24 addr))
  else .refused .oddWord

end Sys2Proof.Machine
end

