-- ==== Sys2Proof/Machine/Dispatch.lean ====
section
/-! DEFINITION. The meaning of each operation: one direct call per constructor of `Instr`. -/

namespace Sys2Proof.Machine

def exec (i : Instr) (s : State) : Host.Outcome State Fault Refusal :=
  match i with
  | .rdRam size off => Sys2Proof.Machine.execRdRam size off s
  | .wrRam off d => Sys2Proof.Machine.execWrRam off d s
  | .rdRom0 size off => Sys2Proof.Machine.execRdRom0 size off s
  | .wrRom0 off d => Sys2Proof.Machine.execWrRom0 off d s
  | .rdRom1 size off => Sys2Proof.Machine.execRdRom1 size off s
  | .wrRom1 off d => Sys2Proof.Machine.execWrRom1 off d s
  | .rdSerial size off => Sys2Proof.Machine.execRdSerial size off s
  | .wrSerial off d => Sys2Proof.Machine.execWrSerial off d s
  | .rdTimer size off => Sys2Proof.Machine.execRdTimer size off s
  | .wrTimer off d => Sys2Proof.Machine.execWrTimer off d s
  | .rdPagemap size off => Sys2Proof.Machine.execRdPagemap size off s
  | .wrPagemap off d => Sys2Proof.Machine.execWrPagemap off d s
  | .rdSegmap size off => Sys2Proof.Machine.execRdSegmap size off s
  | .wrSegmap off d => Sys2Proof.Machine.execWrSegmap off d s
  | .rdSwitch size off => Sys2Proof.Machine.execRdSwitch size off s
  | .wrSwitch off d => Sys2Proof.Machine.execWrSwitch off d s
  | .rdUnmapped size a => Sys2Proof.Machine.execRdUnmapped size a s
  | .wrUnmapped a d => Sys2Proof.Machine.execWrUnmapped a d s
  | .setlineSerInt level => Sys2Proof.Machine.execSetlineSerInt level s
  | .setlineTmrOut1 level => Sys2Proof.Machine.execSetlineTmrOut1 level s
  | .setlineTmrOut2 level => Sys2Proof.Machine.execSetlineTmrOut2 level s
  | .setlineTmrOut3 level => Sys2Proof.Machine.execSetlineTmrOut3 level s
  | .setlineTmrOut4 level => Sys2Proof.Machine.execSetlineTmrOut4 level s
  | .setlineTmrOut5 level => Sys2Proof.Machine.execSetlineTmrOut5 level s
  | .reset => Sys2Proof.Machine.execReset s
  | .construct rom0 rom1 => Sys2Proof.Machine.execConstruct rom0 rom1 s
  | .resolve addr size => Sys2Proof.Machine.execResolve addr size s

end Sys2Proof.Machine
end

