-- ==== Sys2Proof/Machine/Fetch.lean ====
section
/-! DEFINITION. Taking the next operation from the interface. -/

namespace Sys2Proof.Machine

/-- The next operation record and the state with that record taken; none where nothing has been issued. -/
def State.fetch (s : State) : Option (Request × State) :=
  match s.inbox with
  | [] => none
  | r :: rest => some (r, { s with inbox := rest })

/-- A record is issued as the very next operation. -/
def State.issue (s : State) (r : Request) : State := { s with inbox := r :: s.inbox }

end Sys2Proof.Machine
end

