-- ==== Sys2Proof/Machine/Step.lean ====
section
/-! DEFINITION. One step: the next operation of the total order (20_memory.md R65) is taken from the
interface, decoded and performed. -/

namespace Sys2Proof.Machine

/-- An operation record performed: decoded and given its meaning, or refused (60_exceptions.md R246). -/
def perform (r : Request) (s : State) : Host.Outcome State Fault Refusal :=
  match decode r with
  | .ok i => exec i s
  | .error e => .refused (.rejected e)

/-- One step. Where nothing has been issued, nothing changes (log 22). -/
def step (s : State) : Host.Outcome State Fault Refusal :=
  match s.fetch with
  | none => .next s
  | some (r, t) => perform r t

/-- The operation that a word of spec/opcode_table.json stands for, issued next. -/
def State.withFetchWord (s : State) (nbits w : Nat) : State := s.issue (tableRequest nbits w)

end Sys2Proof.Machine
end

