-- ==== Sys2Proof/Machine/BusCycle.lean ====
section
/-! DEFINITION. A bus cycle as the pseudocode of 41_window_access.md R130 and R131 writes it: the arithmetic
`Resolve` of 40_decode.md chooses the window, then that window's handler is called. The step goes another
way (the mask and match rows choose a constructor, the constructor its meaning); a statement says that the
two agree. -/

namespace Sys2Proof.Machine

/-- `W.Read(wo, L)` by the window's name (41_window_access.md R132, R134, R136, R140, R144, R148, R150, R152). -/
def windowRead (w : WindowName) (wo : Nat) (l : BusWord) (s : State) : BusWord × State :=
  match w with
  | .ram => (storeRead (s.cell .ram) wo, s)
  | .rom0 => (storeRead (s.romCell .rom0) wo, s)
  | .rom1 => (storeRead (s.romCell .rom1) wo, s)
  | .serial => readSerial (BitVec.ofNat serialOffWidth wo) l s
  | .timer => readTimer (BitVec.ofNat timerOffWidth wo) l s
  | .pagemap => (storeRead (s.cell .pagemap) wo, s)
  | .segmap => (storeRead (s.cell .segmap) wo, s)
  | .switch => (switchValue, s)

/-- `W.Write(wo, B, L)` by the window's name (41_window_access.md R133, R135, R137, R142, R146, R149, R151, R153). -/
def windowWrite (w : WindowName) (wo : Nat) (b l : BusWord) (s : State) : State :=
  match w with
  | .ram => s.storeWrite .ram wo b l
  | .rom0 => s
  | .rom1 => s
  | .serial => writeSerial (BitVec.ofNat serialOffWidth wo) b l s
  | .timer => writeTimer (BitVec.ofNat timerOffWidth wo) b l s
  | .pagemap => s.storeWrite .pagemap wo b l
  | .segmap => s.storeWrite .segmap wo b l
  | .switch => s

/-- `BusRead(A, size)` of an admitted cycle (41_window_access.md R130). -/
def pseudoRead (addr : AddrIn) (size : Size) (s : State) : Host.Outcome State Fault Refusal :=
  let a := mask24 addr
  match resolveAddr a with
  | none => s.raise (.unmappedAccess a)
  | some (w, off) =>
    let r := windowRead w.name (off / 2 * 2) (lanes size a[0]) s
    .next (r.2.respond (laneResponse size a[0] r.1))

/-- `BusWrite(A, size, D)` of an admitted cycle (41_window_access.md R131). -/
def pseudoWrite (addr : AddrIn) (d : WData) (s : State) : Host.Outcome State Fault Refusal :=
  let a := mask24 addr
  match resolveAddr a with
  | none => s.raise (.unmappedAccess a)
  | some (w, off) =>
    .next ((windowWrite w.name (off / 2 * 2) (busWord d a[0]) (lanes d.size a[0]) s).respond .done)

end Sys2Proof.Machine
end

