-- ==== Sys2Proof/Machine/Pseudo.lean ====
section
/-! DEFINITION. The pseudo-operations RD32 and WR32 (30_encoding.md R96): two bus cycles, the lower address
first, the second not issued where the first raises an error. They are no operations of the block: a line
change may fall between the two cycles (20_memory.md R59), which a caller shows by stepping them singly. -/

namespace Sys2Proof.Machine

/-- The two records of RD32 (30_encoding.md R96); `A + 2` wraps at 32 bits and is then masked. -/
def rd32Records (addr : AddrIn) : Request × Request :=
  (.bus .read Size.word.bits addr 0, .bus .read Size.word.bits (addr + 2) 0)

/-- The two records of WR32 (30_encoding.md R96). -/
def wr32Records (addr : AddrIn) (v : BitVec (2 * dataWidth)) : Request × Request :=
  (.bus .write Size.word.bits addr (v.extractLsb' dataWidth dataWidth), .bus .write Size.word.bits (addr + 2) (v.extractLsb' 0 dataWidth))

/-- Two records one after the other: the outcome of the second, with the response of the first beside it;
where the first raises an error, its own outcome. -/
def performPair (rs : Request × Request) (s : State) : Response × Host.Outcome State Fault Refusal :=
  match perform rs.1 s with
  | .next t =>
    match t.resp with
    | .error e => (.error e, .next t)
    | r => (r, perform rs.2 t)
  | o => (.none, o)

/-- RD32: both halves, upper half first. -/
def rd32 (addr : AddrIn) (s : State) : Response × Host.Outcome State Fault Refusal :=
  performPair (rd32Records addr) s

/-- WR32. -/
def wr32 (addr : AddrIn) (v : BitVec (2 * dataWidth)) (s : State) : Response × Host.Outcome State Fault Refusal :=
  performPair (wr32Records addr v) s

/-- The 32-bit result `hi, lo` of RD32, where both cycles gave a word (30_encoding.md R96). -/
def rd32Result : Response × Host.Outcome State Fault Refusal → Option (BitVec (2 * dataWidth))
  | (.word hi, .next t) =>
    match t.resp with
    | .word lo => some (hi ++ lo)
    | _ => none
  | _ => none

end Sys2Proof.Machine
end

