-- ==== Sys2Proof/Safety.lean ====
section
/-! DEFINITION. What counts as a sound state and a safe run, and the vocabulary of the statements. -/

namespace Sys2Proof

open Machine

/-! ## Addresses -/

/-- The addresses that decode to no window, as 20_memory.md R62 lists them: above each ROM bank, and between
the images of the serial window (the last family is the spec's decision D3; log 15). -/
def isUnmappedAddr (a : Addr) : Bool :=
  (rom0Base + romBankSize ≤ a.toNat && a.toNat < rom1Base) ||
  (rom1Base + romBankSize ≤ a.toNat && a.toNat < serialBase) ||
  (serialBase ≤ a.toNat && a.toNat ≤ serialEnd && serialSize ≤ (a.toNat - serialBase) % serialPeriod)

/-! ## Kinds of operations and calls -/

/-- A register access of a chip, not a clock edge or a pin (41_window_access.md R158). -/
def DevCall.isAccess : DevCall → Bool
  | .serialRead _ => true
  | .serialWrite _ _ => true
  | .timerRead _ _ => true
  | .timerWrite _ _ _ => true
  | .serialClk _ _ => false
  | .pinGate _ _ => false
  | .pinSource _ _ => false

/-- Which operation is admitted in which phase (70_reset_and_hazards.md R276). -/
def Instr.admittedIn : Instr → Phase → Bool
  | .resolve _ _, _ => true
  | .construct _ _, p => p == .unbuilt
  | .reset, p => p != .unbuilt
  | .setlineSerInt _, p => p != .unbuilt
  | .setlineTmrOut1 _, p => p != .unbuilt
  | .setlineTmrOut2 _, p => p != .unbuilt
  | .setlineTmrOut3 _, p => p != .unbuilt
  | .setlineTmrOut4 _, p => p != .unbuilt
  | .setlineTmrOut5 _, p => p != .unbuilt
  | .rdRam _ _, p => p == .running
  | .wrRam _ _, p => p == .running
  | .rdRom0 _ _, p => p == .running
  | .wrRom0 _ _, p => p == .running
  | .rdRom1 _ _, p => p == .running
  | .wrRom1 _ _, p => p == .running
  | .rdSerial _ _, p => p == .running
  | .wrSerial _ _, p => p == .running
  | .rdTimer _ _, p => p == .running
  | .wrTimer _ _, p => p == .running
  | .rdPagemap _ _, p => p == .running
  | .wrPagemap _ _, p => p == .running
  | .rdSegmap _ _, p => p == .running
  | .wrSegmap _ _, p => p == .running
  | .rdSwitch _ _, p => p == .running
  | .wrSwitch _ _, p => p == .running
  | .rdUnmapped _ _, p => p == .running
  | .wrUnmapped _ _, p => p == .running

/-- The response of reading back write data. -/
def WData.readBack : WData → Response
  | .byte v => .byte v
  | .word v => .word v

/-- How many register accesses an operation makes: one for a TIMER cycle, one for a SERIAL cycle on the
upper lane, none for any other (41_window_access.md R143, R158). -/
def Instr.accessCount : Instr → Nat
  | .rdSerial .word _ => 1
  | .rdSerial .byte off => if off[0] then 0 else 1
  | .wrSerial _ (.word _) => 1
  | .wrSerial off (.byte _) => if off[0] then 0 else 1
  | .rdTimer _ _ => 1
  | .wrTimer _ _ => 1
  | .rdRam _ _ => 0
  | .wrRam _ _ => 0
  | .rdRom0 _ _ => 0
  | .wrRom0 _ _ => 0
  | .rdRom1 _ _ => 0
  | .wrRom1 _ _ => 0
  | .rdPagemap _ _ => 0
  | .wrPagemap _ _ => 0
  | .rdSegmap _ _ => 0
  | .wrSegmap _ _ => 0
  | .rdSwitch _ _ => 0
  | .wrSwitch _ _ => 0
  | .rdUnmapped _ _ => 0
  | .wrUnmapped _ _ => 0
  | .setlineSerInt _ => 0
  | .setlineTmrOut1 _ => 0
  | .setlineTmrOut2 _ => 0
  | .setlineTmrOut3 _ => 0
  | .setlineTmrOut4 _ => 0
  | .setlineTmrOut5 _ => 0
  | .reset => 0
  | .construct _ _ => 0
  | .resolve _ _ => 0

/-- The operations after which a collaborator may have driven a line: SETLINE itself and the device
windows (42_interrupt_router.md R192, 20_memory.md R68). -/
def Instr.mayMoveLines : Instr → Bool
  | .rdSerial _ _ => true
  | .wrSerial _ _ => true
  | .rdTimer _ _ => true
  | .wrTimer _ _ => true
  | .setlineSerInt _ => true
  | .setlineTmrOut2 _ => true
  | .setlineTmrOut3 _ => true
  | .setlineTmrOut4 _ => true
  | .setlineTmrOut5 _ => true
  | .setlineTmrOut1 _ => false
  | .rdRam _ _ => false
  | .wrRam _ _ => false
  | .rdRom0 _ _ => false
  | .wrRom0 _ _ => false
  | .rdRom1 _ _ => false
  | .wrRom1 _ _ => false
  | .rdPagemap _ _ => false
  | .wrPagemap _ _ => false
  | .rdSegmap _ _ => false
  | .wrSegmap _ _ => false
  | .rdSwitch _ _ => false
  | .wrSwitch _ _ => false
  | .rdUnmapped _ _ => false
  | .wrUnmapped _ _ => false
  | .reset => false
  | .construct _ _ => false
  | .resolve _ _ => false

/-- The operations whose response shows the page map's or the segment map's contents. -/
def Instr.readsStub : Instr → Bool
  | .rdPagemap _ _ => true
  | .rdSegmap _ _ => true
  | .rdRam _ _ => false
  | .wrRam _ _ => false
  | .rdRom0 _ _ => false
  | .wrRom0 _ _ => false
  | .rdRom1 _ _ => false
  | .wrRom1 _ _ => false
  | .rdSerial _ _ => false
  | .wrSerial _ _ => false
  | .rdTimer _ _ => false
  | .wrTimer _ _ => false
  | .wrPagemap _ _ => false
  | .wrSegmap _ _ => false
  | .rdSwitch _ _ => false
  | .wrSwitch _ _ => false
  | .rdUnmapped _ _ => false
  | .wrUnmapped _ _ => false
  | .setlineSerInt _ => false
  | .setlineTmrOut1 _ => false
  | .setlineTmrOut2 _ => false
  | .setlineTmrOut3 _ => false
  | .setlineTmrOut4 _ => false
  | .setlineTmrOut5 _ => false
  | .reset => false
  | .construct _ _ => false
  | .resolve _ _ => false

/-- The refused forms of 60_exceptions.md R246, record by record: a size other than 8 or 16, a word at an odd
masked address, a source code outside the six, an image length without a meaning, a phase that does not
admit the operation (70_reset_and_hazards.md R276). -/
def Request.refusedForm : Request → Phase → Prop
  | .bus _ size addr _, p =>
    p ≠ .running ∨ (size ≠ 8 ∧ size ≠ 16) ∨ (size = 16 ∧ (mask24 addr).toNat % 2 = 1)
  | .query addr size, _ => (size ≠ 8 ∧ size ≠ 16) ∨ (size = 16 ∧ (mask24 addr).toNat % 2 = 1)
  | .line src _, p => p = .unbuilt ∨ 6 ≤ src.toNat
  | .reset, p => p = .unbuilt
  | .construct rom0 rom1, p =>
    p ≠ .unbuilt ∨ (8 ≤ rom0.length ∧ ¬(rom0.length = 0x2000 ∧ rom1.length = 0x2000))

end Sys2Proof

namespace Sys2Proof.Machine

/-! ## The output trace -/

/-- The input an event drives, and to which level; none for a processor reset and for the pins. -/
def OutEvent.drives : OutEvent → Option (LineDest × Bool)
  | .cpuIrq l v => some (.irq l, v)
  | .serialClk ch v => some (.serialClk ch, v)
  | .cpuReset => none
  | .pinGate _ _ => none
  | .pinSource _ _ => none

/-- The level that a trace last drove on an input, `d` where it drove none. -/
def lastDriven (dest : LineDest) (d : Bool) : List OutEvent → Bool
  | [] => d
  | e :: rest =>
    match e.drives with
    | some (k, v) => if k = dest then lastDriven dest v rest else lastDriven dest d rest
    | none => lastDriven dest d rest

/-- The call into a chip that delivers an event, for the events that go to a chip (00_scope.md R11). -/
def OutEvent.delivery : OutEvent → Option DevCall
  | .serialClk ch v => some (.serialClk ch v)
  | .pinGate ch v => some (.pinGate ch v)
  | .pinSource ch v => some (.pinSource ch v)
  | .cpuReset => none
  | .cpuIrq _ _ => none

/-- The levels of a list that are new on a line which is at `d` before it: the list without repeated levels, in
its order (42_interrupt_router.md R185). -/
def newLevels (d : Bool) : List Bool → List Bool
  | [] => []
  | v :: rest => if v = d then newLevels d rest else v :: newLevels v rest

/-- The event that a new level of a timer output causes (42_interrupt_router.md R182 to R184,
44_board_wiring.md R221, R222); output 1 goes nowhere. -/
def timerEvent : TimerOut → Bool → Option OutEvent
  | .out1, _ => none
  | .out2, v => some (.cpuIrq irqTimer2 v)
  | .out3, v => some (.cpuIrq irqTimer3 v)
  | .out4, v => some (.serialClk .A v)
  | .out5, v => some (.serialClk .B v)

/-- The events that a list of timer SETLINEs causes, one for each new level and in their order, where the
outputs are at `level` before it (20_memory.md R69, 42_interrupt_router.md R185). -/
def timerEdges (level : TimerOut → Bool) : List (TimerOut × Bool) → List OutEvent
  | [] => []
  | (c, v) :: rest =>
    if v = level c then timerEdges level rest
    else (timerEvent c v).toList ++ timerEdges (Function.update level c v) rest

/-- How many of the events are clock edges, which call the serial chip (44_board_wiring.md R221, R222). -/
def clockEdges (es : List OutEvent) : Nat := es.countP (fun e => e.delivery.isSome)

/-- The events `es` with the level 5 events that the serial chip's listed answers add: each clock edge takes the
next answer, and its new levels come right after the edge (44_board_wiring.md R223); SER_INT is at `d` before. -/
def withSerialAnswers (d : Bool) : List SerialAnswer → List OutEvent → List OutEvent
  | _, [] => []
  | [], e :: es => e :: withSerialAnswers d [] es
  | y :: ys, e :: es =>
    match e.delivery with
    | some _ =>
      e :: (newLevels d y.ints).map (OutEvent.cpuIrq irqSerial) ++
        withSerialAnswers (y.ints.getLast?.getD d) ys es
    | none => e :: withSerialAnswers d (y :: ys) es

/-- Every event of the trace on an input changes its level, which is `d` before the trace
(42_interrupt_router.md R185). -/
def onlyEdges (dest : LineDest) (d : Bool) : List OutEvent → Bool
  | [] => true
  | e :: rest =>
    match e.drives with
    | some (k, v) => if k = dest then v != d && onlyEdges dest v rest else onlyEdges dest d rest
    | none => onlyEdges dest d rest

/-- An event on a processor input is on a wired level (10_state.md R33, 42_interrupt_router.md R187). -/
def OutEvent.legal : OutEvent → Bool
  | .cpuIrq l _ => l == irqSerial || l == irqTimer2 || l == irqTimer3
  | .cpuReset => true
  | .serialClk _ _ => true
  | .pinGate _ _ => true
  | .pinSource _ _ => true

/-- An event on the processor's level 5 input, the one the serial chip causes. -/
def OutEvent.isIrq5 : OutEvent → Bool
  | .cpuIrq l _ => l == irqSerial
  | .cpuReset => false
  | .serialClk _ _ => false
  | .pinGate _ _ => false
  | .pinSource _ _ => false

/-! ## The timer chip's lines -/

/-- The level of each timer output (10_state.md R30); output 1 has no record, its entry means nothing. -/
def State.timerLevel (s : State) : TimerOut → Bool
  | .out1 => lineInit
  | .out2 => s.tout2
  | .out3 => s.tout3
  | .out4 => s.tout4
  | .out5 => s.tout5

/-- The last level that an answer gives an output, `d` where it gives none. -/
def lastLevel (outs : List (TimerOut × Bool)) (c : TimerOut) (d : Bool) : Bool :=
  ((outs.filter (fun x => x.1 == c)).getLast?.map (·.2)).getD d

/-! ## The invariant -/

/-- The invariant of the block. -/
structure State.Inv (s : State) : Prop where
  /-- The writable arrays are in canonical form, the model's own (log 5). -/
  ramForm : Memory.wf ramSize s.ram
  pagemapForm : Memory.wf pagemapSize s.pagemap
  segmapForm : Memory.wf segmapSize s.segmap
  /-- A constructed board has two whole ROM banks (10_state.md R26; the spec's decision D13, log 16). -/
  banks : s.phase ≠ .unbuilt → s.rom0.length = romBankSize ∧ s.rom1.length = romBankSize
  /-- Each wired level shows its source (10_state.md R30). -/
  irq5Source : s.irq5 = s.serint
  irq6Source : s.irq6 = s.tout2
  irq7Source : s.irq7 = s.tout3
  /-- What a line shows is what the trace last drove on it, counted from `lineInit` (42_interrupt_router.md R189,
  R191; the spec's decision D12, log 8). -/
  irq5Trace : s.irq5 = lastDriven (.irq irqSerial) lineInit s.out
  irq6Trace : s.irq6 = lastDriven (.irq irqTimer2) lineInit s.out
  irq7Trace : s.irq7 = lastDriven (.irq irqTimer3) lineInit s.out
  clkATrace : s.tout4 = lastDriven (.serialClk .A) lineInit s.out
  clkBTrace : s.tout5 = lastDriven (.serialClk .B) lineInit s.out
  /-- No event repeats a level (42_interrupt_router.md R185; the spec's decision D23, log 19). -/
  edges : ∀ dest, onlyEdges dest lineInit s.out = true
  /-- No event names an unwired level (42_interrupt_router.md R187). -/
  legal : ∀ e ∈ s.out, e.legal = true
  /-- The clock edges and pin levels of the trace reached the chips, each once and in this order
  (20_memory.md R69). -/
  delivered : s.calls.filter (fun c => !c.isAccess) = s.out.filterMap OutEvent.delivery
  /-- Nothing is emitted before CONSTRUCT, no processor reset before RESET (10_state.md R32, R33). -/
  unbuiltTrace : s.phase = .unbuilt → s.out = []
  builtTrace : s.phase = .built → OutEvent.cpuReset ∉ s.out
  runningTrace : s.phase = .running → OutEvent.cpuReset ∈ s.out

/-! ## The lifecycle -/

/-- The SETLINE operation of a source (30_encoding.md R86). -/
def setlineInstr (src : LineSrc) (level : Bool) : Instr :=
  match src with
  | .serInt => .setlineSerInt level
  | .tmrOut1 => .setlineTmrOut1 level
  | .tmrOut2 => .setlineTmrOut2 level
  | .tmrOut3 => .setlineTmrOut3 level
  | .tmrOut4 => .setlineTmrOut4 level
  | .tmrOut5 => .setlineTmrOut5 level

/-! ## Storage cycles by array -/

/-- The read of a writable array's window. -/
def storeReadInstr (st : Store) (size : Size) (off : BitVec ramOffWidth) : Instr :=
  match st with
  | .ram => .rdRam size off
  | .pagemap => .rdPagemap size off
  | .segmap => .rdSegmap size off

/-- The write to a writable array's window. -/
def storeWriteInstr (st : Store) (off : BitVec ramOffWidth) (d : WData) : Instr :=
  match st with
  | .ram => .wrRam off d
  | .pagemap => .wrPagemap off d
  | .segmap => .wrSegmap off d

/-- The read of a ROM bank's window. -/
def bankReadInstr (b : Bank) (size : Size) (off : BitVec romOffWidth) : Instr :=
  match b with
  | .rom0 => .rdRom0 size off
  | .rom1 => .rdRom1 size off

/-- The write to a ROM bank's window. -/
def bankWriteInstr (b : Bank) (off : BitVec romOffWidth) (d : WData) : Instr :=
  match b with
  | .rom0 => .wrRom0 off d
  | .rom1 => .wrRom1 off d

/-- The byte that write data at offset `off` stores at index `i`, where it stores one: a byte at its own
offset, a word big-endian at its two (20_memory.md R53). -/
def storedByte (d : WData) (off i : Nat) : Option Byte :=
  match d with
  | .byte v => if i = off then some v else none
  | .word v => if i = off then some (upperByte v) else if i = off + 1 then some (lowerByte v) else none

/-- The register accesses of the chips so far (41_window_access.md R158). -/
def State.accesses (s : State) : Nat := s.calls.countP DevCall.isAccess

/-- The state with other contents in the two stub arrays. -/
def State.withStubs (s : State) (p g : Memory) : State := { s with pagemap := p, segmap := g }

/-! ## Safe runs -/

/-- The last operation raised no error: what a claim about a program takes as a premise or proves
(93_implementation_defined.md U3). -/
def State.noError (s : State) : Bool :=
  match s.resp with
  | .error _ => false
  | .none => true
  | .done => true
  | .byte _ => true
  | .word _ => true
  | .resolved _ _ => true

/-- A safe run of `n` steps: no refusal, and no operation of it raised an error. -/
def State.safeRun : Nat → State → Prop
  | 0, _ => True
  | n + 1, s =>
    match step s with
    | .next t => t.noError = true ∧ t.safeRun n
    | .fault _ => False
    | .refused _ => False

end Sys2Proof.Machine
end

