-- ==== Sys2Proof/Certificates/Slice0/Obligations.lean ====
section
/-! DEFINITION. The statements about the model, for the provers. Each docstring names the rules or sections
of spec/ it rests on, and says where a clause is the model's own choice. -/

open Sys2Proof Sys2Proof.Machine

/-! ## Encoding and decoding -/

/-- Decoding the record of a well-formed operation gives the operation back, for every constructor and every
operand (30_encoding.md R82, R86, R89). -/
def Obligations.DecodeOfEncodeIsIdentity : Prop :=
  ∀ i : Instr, i.wf = true → decode (encode i) = .ok i

/-- What the decoder reads from a record is well-formed; the lengths of CONSTRUCT's images are not the
decoder's to check (60_exceptions.md R246). -/
def Obligations.DecodedOperationsAreWellFormed : Prop :=
  ∀ (r : Request) (i : Instr), decode r = .ok i → (∀ r0 r1, i ≠ .construct r0 r1) → i.wf = true

/-- No two windows match one address, so the order of the table never decides a result (40_decode.md R119). -/
def Obligations.NoTwoWindowsMatch : Prop :=
  ∀ a : Addr,
    (windowTable.filter (fun w => windowMatches w a.toNat)).length ≤ 1 ∧
    ∀ table : List Window, table.Perm windowTable → resolveIn table a.toNat = resolveAddr a

/-- Mask and match row `p` matches exactly where RESOLVE returns window `p`, counted from 0, and so the
decoder's window is RESOLVE's (30_encoding.md R90). -/
def Obligations.BusRowsAgreeWithResolve : Prop :=
  ∀ a : Addr,
    decodeWindow a = (resolveAddr a).map (fun r => r.1.name) ∧
    ∀ (p : Nat) (row : BusRow) (w : Window), p < 8 → busRows[p]? = some row → windowTable[p]? = some w →
      (row.hits a = true ↔ ∃ off, resolveAddr a = some (w, off))

/-- The offset of each window, its bit form, and when the window matches (30_encoding.md R83). -/
def Obligations.OffsetAssembly : Prop :=
  ∀ w ∈ windowTable, ∀ a : Nat,
    (windowMatches w a = true → windowOffset w a < w.size) ∧
    (w.base ≤ a ∧ a ≤ w.last →
      windowOffset w a = a &&& (w.period - 1) ∧
      (windowMatches w a = true ↔ windowOffset w a < w.size) ∧
      (windowMatches w a = true ↔ a &&& (w.period - w.size) = 0)) ∧
    (¬(w.base ≤ a ∧ a ≤ w.last) → windowMatches w a = false)

/-- The addresses that decode to no window are exactly those listed (20_memory.md section 5; the gaps between
the serial images are the spec's decision D3, log 15). -/
def Obligations.UnmappedAddressesAreExactlyThoseListed : Prop :=
  ∀ a : Addr, resolveAddr a = none ↔
    (0x202000 ≤ a.toNat ∧ a.toNat ≤ 0x3FFFFF) ∨ (0x402000 ≤ a.toNat ∧ a.toNat ≤ 0x5FFFFF) ∨
    ∃ k < 16, 0x600008 + k * 0x20000 ≤ a.toNat ∧ a.toNat ≤ 0x61FFFF + k * 0x20000

/-- Only `A[23:0]` counts: address bits above bit 23 are ignored, in every bus cycle and every RESOLVE, and so
in the address that an error carries (40_decode.md R111). -/
def Obligations.HighAddressBitsAreIgnored : Prop :=
  ∀ (rw : Rw) (size : Nat) (addr k : AddrIn) (data : BusWord) (s : State),
    mask24 addr = addr.extractLsb' 0 24 ∧
    perform (.bus rw size (addr + k * 0x1000000) data) s = perform (.bus rw size addr data) s ∧
    perform (.query (addr + k * 0x1000000) size) s = perform (.query addr size) s

/-- All images of a mirrored window are the same device locations: two addresses in the span of SERIAL, or
of TIMER, with the same offset decode to the same operation (40_decode.md R115). -/
def Obligations.ImagesOfAWindowAreOneDevice : Prop :=
  ∀ (a b : Addr) (size : Size) (d : WData),
    (0x600000 ≤ a.toNat ∧ a.toNat ≤ 0x7FFFFF → 0x600000 ≤ b.toNat ∧ b.toNat ≤ 0x7FFFFF →
      a.toNat % 0x20000 = b.toNat % 0x20000 → a.toNat % 0x20000 < 8 →
      ∃ off : BitVec 3, off.toNat = a.toNat % 0x20000 ∧
        decodeRead size a = .rdSerial size off ∧ decodeRead size b = .rdSerial size off ∧
        decodeWrite d a = .wrSerial off d ∧ decodeWrite d b = .wrSerial off d) ∧
    (0x800000 ≤ a.toNat ∧ a.toNat ≤ 0x9FFFFF → 0x800000 ≤ b.toNat ∧ b.toNat ≤ 0x9FFFFF →
      a.toNat % 4 = b.toNat % 4 →
      ∃ off : BitVec 2, off.toNat = a.toNat % 4 ∧
        decodeRead size a = .rdTimer size off ∧ decodeRead size b = .rdTimer size off ∧
        decodeWrite d a = .wrTimer off d ∧ decodeWrite d b = .wrTimer off d)

/-- A few words written out from the spec's encodings decode to their operations (30_encoding.md R86, R89;
95_test_vectors.md V2). How a word of the table is numbered is the model's choice (log 2): a word of 24 bits is
an 8-bit read at that address, a LINE row's word has its level in bit 3. -/
def Obligations.SampleWordsDecode : Prop :=
  decodeTableWord 24 0x1FFFFF = some (.rdRam .byte 0x1FFFFF) ∧
  decodeTableWord 24 0x201FFF = some (.rdRom0 .byte 0x1FFF) ∧
  decodeTableWord 24 0x202000 = some (.rdUnmapped .byte 0x202000) ∧
  decodeTableWord 24 0x7E0006 = some (.rdSerial .byte 6) ∧
  decodeTableWord 24 0x9FFFFE = some (.rdTimer .byte 2) ∧
  decodeTableWord 8 5 = some (.setlineTmrOut5 false) ∧
  decodeTableWord 8 6 = none

/-! ## The step -/

/-- A step runs the operation that the next record decodes to, on the state with that record taken. -/
def Obligations.StepRunsTheDecodedOperation : Prop :=
  ∀ (s : State) (r : Request) (rest : List Request) (i : Instr),
    s.inbox = r :: rest → decode r = .ok i → step s = exec i { s with inbox := rest }

/-- The model's choice (log 22): a step with no operation issued changes nothing. It rests on a run lasting until
the host stops driving it (44_board_wiring.md section 3). -/
def Obligations.IdleStepChangesNothing : Prop :=
  ∀ s : State, s.inbox = [] → step s = .next s

/-- A step refuses exactly the refused forms (60_exceptions.md section 1; the spec's decisions
D4, D5, D13, D19, D25), and never stops with a fault. -/
def Obligations.OnlyRefusedFormsAreRefused : Prop :=
  ∀ (s : State) (r : Request) (rest : List Request), s.inbox = r :: rest →
    ((∃ x, step s = .refused x) ↔ r.refusedForm s.phase) ∧ ∀ x, step s ≠ .fault x

/-- Which operation is admitted in which phase: a well-formed operation completes in exactly the phases that
admit it, and anything else is refused (70_reset_and_hazards.md section 3; the spec's decision D19). -/
def Obligations.AdmittedOperationsComplete : Prop :=
  ∀ (i : Instr) (s : State),
    (i.admittedIn s.phase = false → ∃ x, exec i s = .refused x) ∧
    (i.wf = true → i.admittedIn s.phase = true → ∃ t, exec i s = .next t)

/-- A bus cycle is Resolve by its arithmetic rule and then the window's handler, as the pseudocode writes it
(41_window_access.md R130, R131): the way through masks, constructors and meanings gives the same outcome. -/
def Obligations.BusCycleIsResolveThenHandler : Prop :=
  ∀ (s : State) (addr : AddrIn) (size : Size) (data : BusWord),
    s.phase = .running → size.aligned addr[0] = true →
    perform (.bus .read size.bits addr data) s = pseudoRead addr size s ∧
    perform (.bus .write size.bits addr data) s = pseudoWrite addr (writeData size data) s

/-- RESOLVE answers the window and the offset, or raises UnmappedAccess with the masked address, and reads and
writes no state: its answer is the same in every state and only the response changes (40_decode.md R122). -/
def Obligations.ResolveAnswers : Prop :=
  ∀ (s : State) (addr : AddrIn) (size : Size), size.aligned addr[0] = true →
    (∀ w off, resolveAddr (mask24 addr) = some (w, off) →
      exec (.resolve addr size) s = .next (s.respond (.resolved w.name off))) ∧
    (resolveAddr (mask24 addr) = none →
      exec (.resolve addr size) s = .next (s.respond (.error (.unmappedAccess (mask24 addr)))))

/-! ## Storage windows -/

/-- RD.RAM, RD.PAGEMAP, RD.SEGMAP: a byte read returns the addressed cell, a word read the two cells, upper
byte first; nothing else changes (41_window_access.md sections 2 and 6). -/
def Obligations.StorageReadsReturnCells : Prop :=
  ∀ (st : Store) (off : BitVec 21) (s : State), s.phase = .running →
    exec (storeReadInstr st .byte off) s = .next (s.respond (.byte (s.cell st off.toNat))) ∧
    (off[0] = false →
      exec (storeReadInstr st .word off) s =
        .next (s.respond (.word (s.cell st off.toNat ++ s.cell st (off.toNat + 1)))))

/-- RD.ROM0, RD.ROM1: the same of the bank images (41_window_access.md section 3). -/
def Obligations.RomReadsReturnImageBytes : Prop :=
  ∀ (b : Bank) (off : BitVec 13) (s : State), s.phase = .running →
    exec (bankReadInstr b .byte off) s = .next (s.respond (.byte (s.romCell b off.toNat))) ∧
    (off[0] = false →
      exec (bankReadInstr b .word off) s =
        .next (s.respond (.word (s.romCell b off.toNat ++ s.romCell b (off.toNat + 1)))))

/-- WR.RAM, WR.PAGEMAP, WR.SEGMAP: the bytes of the data are stored at their offsets, every other cell of the
array keeps its value, and nothing but the array and the response changes (41_window_access.md R139). -/
def Obligations.StorageWritesStoreTheirBytesOnly : Prop :=
  ∀ (st : Store) (off : BitVec 21) (d : WData) (s : State),
    s.phase = .running → d.size.aligned off[0] = true →
    ∃ t, exec (storeWriteInstr st off d) s = .next t ∧
      t = (s.setMem st (t.mem st)).respond .done ∧
      ∀ i, t.cell st i = (storedByte d off.toNat i).getD (s.cell st i)

/-- Writing and then reading back returns the written value (95_test_vectors.md S2, S8). -/
def Obligations.WriteThenReadReturnsData : Prop :=
  ∀ (st : Store) (off : BitVec 21) (d : WData) (s t : State),
    exec (storeWriteInstr st off d) s = .next t →
    exec (storeReadInstr st d.size off) t = .next (t.respond d.readBack)

/-- Big-endian storage, through the bus: after a word write at an even address of RAM, PAGEMAP or SEGMAP, that
address reads the upper byte, the next one the lower byte (20_memory.md section 2). -/
def Obligations.WordAccessIsBigEndian : Prop :=
  ∀ (s t : State) (addr : AddrIn) (v : BusWord),
    decodeWindow (mask24 addr) = some .ram ∨ decodeWindow (mask24 addr) = some .pagemap ∨
      decodeWindow (mask24 addr) = some .segmap →
    perform (.bus .write 16 addr v) s = .next t →
    perform (.bus .read 8 addr 0) t = .next (t.respond (.byte (v.extractLsb' 8 8))) ∧
    perform (.bus .read 8 (addr + 1) 0) t = .next (t.respond (.byte (v.extractLsb' 0 8))) ∧
    perform (.bus .read 16 addr 0) t = .next (t.respond (.word v))

/-- WR.ROM0 and WR.ROM1 complete and change nothing (41_window_access.md section 3; the spec's decision D6,
log 10). -/
def Obligations.RomWritesAreDropped : Prop :=
  ∀ (b : Bank) (off : BitVec 13) (d : WData) (s : State), s.phase = .running →
    d.size.aligned off[0] = true → exec (bankWriteInstr b off d) s = .next (s.respond .done)

/-- WR.SWITCH is accepted and ignored: no side effect, no error (41_window_access.md R153). -/
def Obligations.SwitchWritesAreIgnored : Prop :=
  ∀ (off : BitVec 21) (d : WData) (s : State), s.phase = .running →
    d.size.aligned off[0] = true → exec (.wrSwitch off d) s = .next (s.respond .done)

/-! ## The switch register and unmapped addresses -/

/-- RD.SWITCH reads 0x7C00 at every offset, a byte read its lane of it (41_window_access.md section 7). -/
def Obligations.SwitchReadsItsConstant : Prop :=
  ∀ (off : BitVec 21) (s : State), s.phase = .running →
    (off[0] = false → exec (.rdSwitch .word off) s = .next (s.respond (.word 0x7C00))) ∧
    (off[0] = false → exec (.rdSwitch .byte off) s = .next (s.respond (.byte 0x7C))) ∧
    (off[0] = true → exec (.rdSwitch .byte off) s = .next (s.respond (.byte 0x00)))

/-- RD.UNMAPPED: at exactly the addresses of 20_memory.md R62 a read falls to the catch-all row; it raises
UnmappedAccess with the masked address, returns no data and changes nothing (41_window_access.md section 8). That
the gaps between the serial images are among those addresses is the spec's decision D3 (log 15). -/
def Obligations.UnmappedReadsRaise : Prop :=
  ∀ (a : Addr) (size : Size) (s : State), s.phase = .running → size.aligned a[0] = true →
    (decodeRead size a = .rdUnmapped size a ↔ isUnmappedAddr a = true) ∧
    (isUnmappedAddr a = true →
      exec (.rdUnmapped size a) s = .next (s.respond (.error (.unmappedAccess a))))

/-- WR.UNMAPPED: the same of a write, whose data is discarded (41_window_access.md section 8; the spec's
decisions D29, and D3 for the gaps between the serial images, log 15). -/
def Obligations.UnmappedWritesRaise : Prop :=
  ∀ (a : Addr) (d : WData) (s : State), s.phase = .running → d.size.aligned a[0] = true →
    (decodeWrite d a = .wrUnmapped a d ↔ isUnmappedAddr a = true) ∧
    (isUnmappedAddr a = true →
      exec (.wrUnmapped a d) s = .next (s.respond (.error (.unmappedAccess a))))

/-! ## The device windows -/

/-- RD.SERIAL: a byte at an even address and a word read the chip once, the word with any byte on the lower
lane; a byte at an odd address returns any byte and makes no call (41_window_access.md section 4). -/
def Obligations.SerialReadsUseTheUpperLane : Prop :=
  ∀ (off : BitVec 3) (s : State), s.phase = .running →
    let c := DevCall.serialRead (off.extractLsb' 1 2)
    (off[0] = false → ∃ n,
      exec (.rdSerial .byte off) s =
        .next ({ s.callSerial c with draws := n }.respond (.byte (s.serialAnswer c).data))) ∧
    (off[0] = false → ∃ (n : Nat) (u : Byte),
      exec (.rdSerial .word off) s =
        .next ({ s.callSerial c with draws := n }.respond (.word ((s.serialAnswer c).data ++ u)))) ∧
    (off[0] = true → ∃ (n : Nat) (u : Byte),
      exec (.rdSerial .byte off) s = .next ({ s with draws := n }.respond (.byte u)))

/-- WR.SERIAL: a byte at an even address and the upper byte of a word are written to the chip once; a byte at
an odd address does nothing at all (41_window_access.md section 4). -/
def Obligations.SerialWritesUseTheUpperLane : Prop :=
  ∀ (off : BitVec 3) (s : State), s.phase = .running →
    (∀ v : Byte, off[0] = false →
      exec (.wrSerial off (.byte v)) s =
        .next ((s.callSerial (.serialWrite (off.extractLsb' 1 2) v)).respond .done)) ∧
    (∀ v : BusWord, off[0] = false →
      exec (.wrSerial off (.word v)) s =
        .next ((s.callSerial (.serialWrite (off.extractLsb' 1 2) (v.extractLsb' 8 8))).respond .done)) ∧
    (∀ v : Byte, off[0] = true → exec (.wrSerial off (.byte v)) s = .next (s.respond .done))

/-- What a cycle in the serial window leaves alone: everything but the serial line, level 5, the trace (which
gains events on level 5 only), the response and the interface's bookkeeping (00_scope.md R11, 20_memory.md
section 7). -/
def Obligations.SerialCyclesLeaveTheRest : Prop :=
  ∀ (i : Instr) (s t : State), (∃ size off, i = .rdSerial size off) ∨ (∃ off d, i = .wrSerial off d) →
    exec i s = .next t →
    { t with serint := s.serint, irq5 := s.irq5, out := s.out, resp := s.resp, draws := s.draws,
             calls := s.calls, serialAnswers := s.serialAnswers } = s ∧
    ∃ es, t.out = s.out ++ es ∧ ∀ e ∈ es, e.isIrq5 = true

/-- What the serial chip does while it is called is applied before the operation returns (20_memory.md R68,
R69), in every operation that calls it: a read or a write of its window on its lane, a clock edge. One listed
answer is used up; the line and level 5 end at the last level it gives; the trace gains, after the clock edge if
there is one, one level 5 event for each new level, in order. That a repeated level makes no event is the spec's
decision D23 (log 19); that the answers are listed in the state is the model's choice (log 7). -/
def Obligations.SerialAnswerDrivesLevelFive : Prop :=
  ∀ (i : Instr) (s t : State) (x : SerialAnswer) (rest : List SerialAnswer) (edge : List OutEvent),
    (edge = [] ∧ ∃ off : BitVec 3, off[0] = false ∧
      ((∃ size, i = .rdSerial size off) ∨ ∃ d, i = .wrSerial off d)) ∨
    (∃ v, edge = [.serialClk .A v] ∧ i = .setlineTmrOut4 v ∧ s.tout4 = !v) ∨
    (∃ v, edge = [.serialClk .B v] ∧ i = .setlineTmrOut5 v ∧ s.tout5 = !v) →
    s.serialAnswers = x :: rest → s.irq5 = s.serint → exec i s = .next t →
    t.serialAnswers = rest ∧ t.serint = x.ints.getLast?.getD s.serint ∧ t.irq5 = t.serint ∧
    t.out = s.out ++ edge ++ (newLevels s.serint x.ints).map (OutEvent.cpuIrq 5)

/-- RD.TIMER: one device read, with the lane mask of the cycle; a byte read returns its lane of the answer
(41_window_access.md section 5). -/
def Obligations.TimerReadsPassTheLanes : Prop :=
  ∀ (off : BitVec 2) (s : State), s.phase = .running →
    let c := DevCall.timerRead (off.extractLsb' 1 1)
    (off[0] = false →
      exec (.rdTimer .word off) s =
        .next ((s.callTimer (c 0xFFFF)).respond (.word (s.timerAnswer (c 0xFFFF)).data))) ∧
    (off[0] = false →
      exec (.rdTimer .byte off) s =
        .next ((s.callTimer (c 0xFF00)).respond (.byte ((s.timerAnswer (c 0xFF00)).data.extractLsb' 8 8)))) ∧
    (off[0] = true →
      exec (.rdTimer .byte off) s =
        .next ((s.callTimer (c 0x00FF)).respond (.byte ((s.timerAnswer (c 0x00FF)).data.extractLsb' 0 8))))

/-- WR.TIMER: one device write, the byte on its lane, with the lane mask of the cycle (41_window_access.md
section 5). -/
def Obligations.TimerWritesPassTheLanes : Prop :=
  ∀ (off : BitVec 2) (s : State), s.phase = .running →
    let reg := off.extractLsb' 1 1
    (∀ v : BusWord, off[0] = false →
      exec (.wrTimer off (.word v)) s = .next ((s.callTimer (.timerWrite reg v 0xFFFF)).respond .done)) ∧
    (∀ v : Byte, off[0] = false →
      exec (.wrTimer off (.byte v)) s =
        .next ((s.callTimer (.timerWrite reg (v ++ (0 : Byte)) 0xFF00)).respond .done)) ∧
    (∀ v : Byte, off[0] = true →
      exec (.wrTimer off (.byte v)) s =
        .next ((s.callTimer (.timerWrite reg ((0 : Byte) ++ v) 0x00FF)).respond .done))

/-- What a cycle in the timer window leaves alone: storage, the ROM images, the phase, the operations still to
come. The trace only grows, by line changes (00_scope.md R11, 20_memory.md section 7). -/
def Obligations.TimerCyclesLeaveTheRest : Prop :=
  ∀ (i : Instr) (s t : State), (∃ size off, i = .rdTimer size off) ∨ (∃ off d, i = .wrTimer off d) →
    exec i s = .next t →
    t.ram = s.ram ∧ t.pagemap = s.pagemap ∧ t.segmap = s.segmap ∧ t.rom0 = s.rom0 ∧ t.rom1 = s.rom1 ∧
    t.phase = s.phase ∧ t.inbox = s.inbox ∧
    ∃ es, t.out = s.out ++ es ∧ ∀ e ∈ es, e.legal = true ∧ e.drives ≠ none

/-- What the timer chip does during a read or a write is applied before the cycle returns (20_memory.md R68,
R69), for every listed answer. The answer is used up; each of the outputs 2 to 5 ends at the last level the
answer gives it, levels 6 and 7 with outputs 2 and 3; the trace gains one event for each new level, in order,
beside the level 5 events of the serial chip, which is called once for each clock edge; and where the serial
chip's answers to those calls are listed too, the whole trace and level 5 are as they say. That a repeated level
makes no event is the spec's decision D23, that output 1 goes nowhere D22 (log 19); that the answers are listed in
the state is the model's choice (log 7). -/
def Obligations.TimerAnswerDrivesLevelsSixAndSeven : Prop :=
  ∀ (i : Instr) (s t : State) (x : TimerAnswer) (rest : List TimerAnswer),
    (∃ size off, i = .rdTimer size off) ∨ (∃ off d, i = .wrTimer off d) →
    s.timerAnswers = x :: rest → exec i s = .next t →
    let es := timerEdges s.timerLevel x.outs
    let all := withSerialAnswers s.serint s.serialAnswers es
    t.timerAnswers = rest ∧
    (∀ c, c ≠ .out1 → t.timerLevel c = lastLevel x.outs c (s.timerLevel c)) ∧
    (s.irq6 = s.tout2 → t.irq6 = lastLevel x.outs .out2 s.tout2) ∧
    (s.irq7 = s.tout3 → t.irq7 = lastLevel x.outs .out3 s.tout3) ∧
    t.irq6 = lastDriven (.irq 6) s.irq6 es ∧ t.irq7 = lastDriven (.irq 7) s.irq7 es ∧
    (∃ new, t.out = s.out ++ new ∧ new.filter (fun e => !e.isIrq5) = es) ∧
    (∃ c, c.isAccess = true ∧ t.calls = s.calls ++ c :: es.filterMap OutEvent.delivery) ∧
    (clockEdges es ≤ s.serialAnswers.length →
      t.out = s.out ++ all ∧ t.serialAnswers = s.serialAnswers.drop (clockEdges es) ∧
      t.serint = ((s.serialAnswers.take (clockEdges es)).flatMap (·.ints)).getLast?.getD s.serint ∧
      t.irq5 = lastDriven (.irq 5) s.irq5 all)

/-- Each operation makes exactly its register accesses of the chips: one per TIMER cycle, one or none per
SERIAL cycle by lane, none else (41_window_access.md sections 4 and 9). That a byte cycle of SERIAL at an odd
address makes none is the spec's decision D7 (log 11). -/
def Obligations.RegisterAccessesAreCounted : Prop :=
  ∀ (i : Instr) (s t : State), exec i s = .next t → t.accesses = s.accesses + i.accessCount

/-! ## Lines -/

/-- SETLINE of an interrupt source: where the level is new, the source's record, its processor level and one
event (42_interrupt_router.md section 1); else nothing, which is the spec's decision D23 (log 19). -/
def Obligations.InterruptSourcesDriveTheirLevels : Prop :=
  ∀ (v : Bool) (s : State), s.phase ≠ .unbuilt →
    exec (.setlineSerInt v) s = .next (if s.serint ≠ v
      then { s with serint := v, irq5 := v, out := s.out ++ [.cpuIrq 5 v], resp := .done }
      else s.respond .done) ∧
    exec (.setlineTmrOut2 v) s = .next (if s.tout2 ≠ v
      then { s with tout2 := v, irq6 := v, out := s.out ++ [.cpuIrq 6 v], resp := .done }
      else s.respond .done) ∧
    exec (.setlineTmrOut3 v) s = .next (if s.tout3 ≠ v
      then { s with tout3 := v, irq7 := v, out := s.out ++ [.cpuIrq 7 v], resp := .done }
      else s.respond .done)

/-- SETLINE TMR_OUT1 is accepted and does nothing (42_interrupt_router.md section 1; the spec's
decision D22, log 19). -/
def Obligations.TimerOutputOneGoesNowhere : Prop :=
  ∀ (v : Bool) (s : State), s.phase ≠ .unbuilt →
    exec (.setlineTmrOut1 v) s = .next (s.respond .done)

/-- A SETLINE whose level equals the source's current level changes nothing and emits nothing
(42_interrupt_router.md section 1; the spec's decision D23, log 19). -/
def Obligations.RepeatedLevelChangesNothing : Prop :=
  ∀ (src : LineSrc) (v : Bool) (s : State), s.phase ≠ .unbuilt → s.lineLevel src = some v →
    exec (setlineInstr src v) s = .next (s.respond .done)

/-- SETLINE TMR_OUT4 and TMR_OUT5 to a new level: the clock edge is emitted and delivered first, and only then
come the level 5 changes it caused; no other line moves (44_board_wiring.md section 2). -/
def Obligations.ClockEdgePrecedesItsInterrupt : Prop :=
  ∀ (v : Bool) (s : State), s.phase ≠ .unbuilt →
    (s.tout4 = !v → ∃ t es,
      exec (.setlineTmrOut4 v) s = .next t ∧ t.out = s.out ++ .serialClk .A v :: es ∧
      (∀ e ∈ es, e.isIrq5 = true) ∧ t.calls = s.calls ++ [.serialClk .A v] ∧
      { t with tout4 := s.tout4, serint := s.serint, irq5 := s.irq5, out := s.out, resp := s.resp,
               draws := s.draws, calls := s.calls, serialAnswers := s.serialAnswers } = s ∧ t.tout4 = v) ∧
    (s.tout5 = !v → ∃ t es,
      exec (.setlineTmrOut5 v) s = .next t ∧ t.out = s.out ++ .serialClk .B v :: es ∧
      (∀ e ∈ es, e.isIrq5 = true) ∧ t.calls = s.calls ++ [.serialClk .B v] ∧
      { t with tout5 := s.tout5, serint := s.serint, irq5 := s.irq5, out := s.out, resp := s.resp,
               draws := s.draws, calls := s.calls, serialAnswers := s.serialAnswers } = s ∧ t.tout5 = v)

/-- The level on each of the processor's seven inputs (42_interrupt_router.md R188). -/
def Obligations.IrqOutShowsTheWiredLevels : Prop :=
  ∀ s : State, s.irqOut 5 = s.irq5 ∧ s.irqOut 6 = s.irq6 ∧ s.irqOut 7 = s.irq7 ∧
    ∀ l, 1 ≤ l → l ≤ 4 → s.irqOut l = false

/-- Any subset of the levels 5, 6 and 7 may be asserted at once and all are shown: the three sources set in
turn show their three levels (42_interrupt_router.md R190; 95_test_vectors.md V5). -/
def Obligations.AnySubsetOfLevelsIsShown : Prop :=
  ∀ (v5 v6 v7 : Bool) (s : State), s.phase ≠ .unbuilt →
    s.irq5 = s.serint → s.irq6 = s.tout2 → s.irq7 = s.tout3 →
    ∃ t u w, exec (.setlineSerInt v5) s = .next t ∧ exec (.setlineTmrOut2 v6) t = .next u ∧
      exec (.setlineTmrOut3 v7) u = .next w ∧
      w.irqOut 5 = v5 ∧ w.irqOut 6 = v6 ∧ w.irqOut 7 = v7 ∧ ∀ l, 1 ≤ l → l ≤ 4 → w.irqOut l = false

/-- Completeness of the mapping: SER_INT drives level 5 and only 5, TMR_OUT2 level 6, TMR_OUT3 level 7, and
nothing else moves a level: no bus cycle, RESET, CONSTRUCT, TMR_OUT1, TMR_OUT4 or TMR_OUT5, except through a
SETLINE that a chip makes in consequence (42_interrupt_router.md section 2). The operations that reach no chip
move no line at all, SERINT and the timer outputs included: for RESET that is the spec's decision D12 (log 20), for
TMR_OUT1 D22 (log 19). -/
def Obligations.OnlyLineOperationsMoveLines : Prop :=
  ∀ (i : Instr) (s t : State), s.Inv → exec i s = .next t →
    (∀ v, i = .setlineSerInt v → t.irq5 = v ∧ t.irq6 = s.irq6 ∧ t.irq7 = s.irq7) ∧
    (∀ v, i = .setlineTmrOut2 v → t.irq6 = v ∧ t.irq5 = s.irq5 ∧ t.irq7 = s.irq7) ∧
    (∀ v, i = .setlineTmrOut3 v → t.irq7 = v ∧ t.irq5 = s.irq5 ∧ t.irq6 = s.irq6) ∧
    (i.mayMoveLines = false →
      t.serint = s.serint ∧ t.tout2 = s.tout2 ∧ t.tout3 = s.tout3 ∧ t.tout4 = s.tout4 ∧ t.tout5 = s.tout5 ∧
      t.irq5 = s.irq5 ∧ t.irq6 = s.irq6 ∧ t.irq7 = s.irq7) ∧
    ((∀ v, i ≠ .setlineSerInt v ∧ i ≠ .setlineTmrOut2 v ∧ i ≠ .setlineTmrOut3 v) →
      (∀ c, (s.serialAnswer c).ints = []) → (∀ c, (s.timerAnswer c).outs = []) →
      t.irq5 = s.irq5 ∧ t.irq6 = s.irq6 ∧ t.irq7 = s.irq7)

/-- Levels 1 to 4 are not wired: they are always deasserted and the trace never holds an event on them
(42_interrupt_router.md R187). -/
def Obligations.UnwiredLevelsAreNeverAsserted : Prop :=
  ∀ s t : State, (∀ l v, OutEvent.cpuIrq l v ∈ s.out → 5 ≤ l) → step s = .next t →
    (∀ l v, OutEvent.cpuIrq l v ∈ t.out → 5 ≤ l) ∧ ∀ l, 1 ≤ l → l ≤ 4 → t.irqOut l = false

/-! ## RESET and CONSTRUCT -/

/-- RESET copies the first 8 bytes of ROM bank 0 to RAM, emits one CpuReset and makes the phase running
(43_boot_sequencer.md). That it changes nothing else is the spec's decisions D12 and D18 (log 20). -/
def Obligations.ResetCopiesTheVectorAndSignals : Prop :=
  ∀ s : State, s.phase ≠ .unbuilt →
    ∃ t, exec .reset s = .next t ∧
      t = { s with ram := t.ram, out := s.out ++ [.cpuReset], phase := .running, resp := .done } ∧
      (∀ i < 8, t.cell .ram i = s.romCell .rom0 i) ∧ ∀ i, 8 ≤ i → t.cell .ram i = s.cell .ram i

/-- After RESET the processor's byte cycles at addresses 0 to 7 read ROM bank 0's first 8 bytes
(43_boot_sequencer.md; 95_test_vectors.md S4). -/
def Obligations.ResetVectorIsReadableOnTheBus : Prop :=
  ∀ (s t : State) (i : Nat), exec .reset s = .next t → i < 8 →
    perform (.bus .read 8 (BitVec.ofNat 32 i) 0) t = .next (t.respond (.byte (s.romCell .rom0 i)))

/-- A later RESET restores bytes 0 to 7 whatever was written there between, and emits one more CpuReset
(43_boot_sequencer.md; the spec's decision D31, log 20). -/
def Obligations.SecondResetRestoresTheVector : Prop :=
  ∀ (s t u : State) (off : BitVec 21) (d : WData),
    exec .reset s = .next t → exec (.wrRam off d) t = .next u →
    ∃ v, exec .reset u = .next v ∧ (∀ i < 8, v.cell .ram i = s.romCell .rom0 i) ∧
      v.out = s.out ++ [.cpuReset, .cpuReset]

/-- Each RESET appends exactly one CpuReset and no other operation appends one (43_boot_sequencer.md R203). -/
def Obligations.CpuResetsAreCounted : Prop :=
  ∀ (i : Instr) (s t : State), s.Inv → exec i s = .next t →
    t.out.count .cpuReset = s.out.count .cpuReset + (if i = .reset then 1 else 0)

/-- A successful CONSTRUCT (44_board_wiring.md R218, R219): whole images, every line deasserted, the ten pin
events and nothing else (in R218's listing order, which has no meaning: log 24), the phase built, every storage cell
at its power-on value. -/
def Obligations.ConstructBuildsTheBoard : Prop :=
  ∀ (rom0 rom1 : List Byte) (s : State), s.phase = .unbuilt → rom0.length = 0x2000 → rom1.length = 0x2000 →
    ∃ t, exec (.construct rom0 rom1) s = .next t ∧
      t = { s with
            ram := [], pagemap := [], segmap := [], rom0 := rom0, rom1 := rom1,
            serint := false, tout2 := false, tout3 := false, tout4 := false, tout5 := false,
            irq5 := false, irq6 := false, irq7 := false, phase := .built, resp := .done,
            out := [.pinGate 1 true, .pinGate 2 false, .pinGate 3 false, .pinGate 4 false, .pinGate 5 false,
              .pinSource 1 false, .pinSource 2 false, .pinSource 3 false, .pinSource 4 false,
              .pinSource 5 false],
            calls := s.calls ++
              [.pinGate 1 true, .pinGate 2 false, .pinGate 3 false, .pinGate 4 false, .pinGate 5 false,
              .pinSource 1 false, .pinSource 2 false, .pinSource 3 false, .pinSource 4 false,
              .pinSource 5 false] } ∧
      ∀ st i, t.cell st i = Config.powerOnMem st i

/-- CONSTRUCT with a bank 0 image of fewer than 8 bytes raises MalformedRomImage and builds nothing
(44_board_wiring.md R216, R220). -/
def Obligations.ShortBankIsMalformed : Prop :=
  ∀ (rom0 rom1 : List Byte) (s : State), s.phase = .unbuilt → rom0.length < 8 →
    exec (.construct rom0 rom1) s = .next (s.respond (.error .malformedRomImage))

/-- With this board's fixed tables InvalidWireConfiguration is unreachable (60_exceptions.md R244). -/
def Obligations.WireErrorIsNeverRaised : Prop :=
  ∀ (i : Instr) (s t : State), exec i s = .next t → t.resp ≠ .error .invalidWireConfiguration

/-- The check that CONSTRUCT runs on a window table is the validity of 40_decode.md R121, for every table. -/
def Obligations.WindowTableCheckIsExact : Prop :=
  ∀ table : List Window, windowTableValid table = true ↔
    (∀ w ∈ table, 1 ≤ w.size ∧ w.size ≤ w.period ∧ w.base ≤ w.last ∧ w.last ≤ 0xFFFFFF ∧
      w.size ≤ w.last - w.base + 1) ∧
    table.Pairwise (fun w v => ∀ a, ¬(windowMatches w a = true ∧ windowMatches v a = true))

/-- Raising an error changes no state: an operation whose response is an error leaves everything else as it
was, the block keeps no record of it, and the next operation proceeds as if the failed one had not been issued
(60_exceptions.md R240). -/
def Obligations.ErrorsChangeNothing : Prop :=
  ∀ (i : Instr) (s t : State) (e : BoardError), exec i s = .next t → t.resp = .error e →
    t = s.respond (.error e) ∧ ∀ j, exec j t = exec j s

/-- A bank from its two streams: byte `2k` is byte `k` of the even stream, byte `2k + 1` byte `k` of the odd
one (10_state.md R25). -/
def Obligations.BankInterleavesItsStreams : Prop :=
  ∀ even odd : List Byte, even.length = odd.length →
    (bankOfStreams even odd).length = 2 * even.length ∧
    ∀ k, k < even.length →
      (bankOfStreams even odd)[2 * k]? = even[k]? ∧ (bankOfStreams even odd)[2 * k + 1]? = odd[k]?

/-! ## The whole machine -/

/-- The invariant holds of the state after reset and at power-on. Which state is `State.reset` is the model's
choice (log 3); the clauses that rest on a choice are named at `EveryStepKeepsTheInvariant`. -/
def Obligations.InvariantHoldsAtReset : Prop := State.reset.Inv ∧ State.powerOn.Inv

/-- Every step keeps the invariant: canonical storage, whole banks, each wired level equal to its source and
to what the trace last drove, no repeated level, no unwired level, every clock edge delivered. That no event
repeats a level is the spec's decision D23 (log 19), that a constructed board has two whole banks D13 (log 16), that
a line's level is counted from deasserted D12 (log 8); the canonical form of the arrays is the model's own (log 5). -/
def Obligations.EveryStepKeepsTheInvariant : Prop :=
  ∀ s t : State, s.Inv → step s = .next t → t.Inv

/-- Line changes keep their order: a step only appends to the trace (20_memory.md section 7). -/
def Obligations.TraceOnlyGrows : Prop :=
  ∀ s t : State, s.Inv → step s = .next t → s.out <+: t.out

/-- A ROM image never changes once the board is constructed (10_state.md R25). -/
def Obligations.RomImagesNeverChange : Prop :=
  ∀ s t : State, s.phase ≠ .unbuilt → step s = .next t → t.rom0 = s.rom0 ∧ t.rom1 = s.rom1

/-- The lifecycle only goes forward: a running board stays running, a built one is not unbuilt again
(70_reset_and_hazards.md R276). -/
def Obligations.LifecycleOnlyGoesForward : Prop :=
  ∀ s t : State, step s = .next t →
    (s.phase = .running → t.phase = .running) ∧ (s.phase ≠ .unbuilt → t.phase ≠ .unbuilt)

/-- The contents of the page map and the segment map affect nothing but reads of those two windows: with
other contents there, every other operation has the same outcome (10_state.md R27, 20_memory.md R64). -/
def Obligations.StubContentsAffectNothingElse : Prop :=
  ∀ (i : Instr) (s : State) (p g : Memory), i.readsStub = false →
    match exec i s with
    | .next t => ∃ p' g', exec i (s.withStubs p g) = .next (t.withStubs p' g')
    | .refused x => exec i (s.withStubs p g) = .refused x
    | .fault _ => False

/-- The order at power-on (70_reset_and_hazards.md R272): CONSTRUCT with the model's two images and one RESET
lead from power-on to the state after reset. That this state is `State.reset` is the model's choice (log 3). -/
def Obligations.PowerOnSequenceReachesReset : Prop :=
  ∃ t, exec (.construct Config.romBank0.toList Config.romBank1.toList) State.powerOn = .next t ∧
    exec .reset t = .next State.reset

/-- WR32 and then RD32 at the same even RAM address returns the written value (30_encoding.md R96). -/
def Obligations.Wr32ThenRd32ReturnsData : Prop :=
  ∀ (s t : State) (addr : AddrIn) (v : BitVec 32) (r : Response),
    addr[0] = false → decodeWindow (mask24 addr) = some .ram → decodeWindow (mask24 (addr + 2)) = some .ram →
    wr32 addr v s = (r, .next t) → rd32Result (rd32 addr t) = some v
end

