-- ==== Sys2Proof/Laws/Parameters.lean ====
section
/-! SUPPORT. The parameters with the values that 00_scope.md R7 prints, and the tables made of them with the
numbers that 10_state.md R34 and 30_encoding.md R89 print. -/

namespace Sys2Proof.Machine

/-! ## The sizes and ends that are computed -/

theorem addrMax_eq : addrMax = 0xFFFFFF := rfl
theorem ramSize_eq : ramSize = 0x200000 := rfl
theorem romBankSize_eq : romBankSize = 0x2000 := rfl
theorem serialSize_eq : serialSize = 8 := rfl
theorem timerSize_eq : timerSize = 4 := rfl
theorem pagemapSize_eq : pagemapSize = 0x200000 := rfl
theorem segmapSize_eq : segmapSize = 0x200000 := rfl
theorem switchEnd_eq : switchEnd = 0xFFFFFF := rfl
theorem accessSizes_eq : accessSizes = [8, 16] := rfl

/-- The bound of a masked address as a number. -/
theorem addr_lt (a : Addr) : a.toNat < 0x1000000 := a.isLt

/-- The encoded base addresses (30_encoding.md R82) with their numbers. -/
theorem bases_eq : ramBase = 0 ∧ rom0Base = 0x200000 ∧ rom1Base = 0x400000 ∧ serialBase = 0x600000 ∧
    timerBase = 0x800000 ∧ pagemapBase = 0xA00000 ∧ segmapBase = 0xC00000 ∧ switchBase = 0xE00000 :=
  ⟨rfl, rfl, rfl, rfl, rfl, rfl, rfl, rfl⟩

/-- The model's two images are whole banks (10_state.md R26). -/
theorem romBank0_length : Config.romBank0.toList.length = 0x2000 := Config.romBank0.size_toArray
theorem romBank1_length : Config.romBank1.toList.length = 0x2000 := Config.romBank1.size_toArray

/-! ## The tables -/

/-- The window table with its numbers written out (10_state.md R34). -/
theorem windowTable_eq : windowTable =
    [⟨.ram, 0x000000, 0x1FFFFF, 0x200000, 0x200000, 16, 0xFFFF, .readWrite⟩,
     ⟨.rom0, 0x200000, 0x201FFF, 0x2000, 0x2000, 16, 0xFFFF, .readOnly⟩,
     ⟨.rom1, 0x400000, 0x401FFF, 0x2000, 0x2000, 16, 0xFFFF, .readOnly⟩,
     ⟨.serial, 0x600000, 0x7FFFFF, 8, 0x20000, 8, 0xFF00, .device⟩,
     ⟨.timer, 0x800000, 0x9FFFFF, 4, 4, 16, 0xFFFF, .device⟩,
     ⟨.pagemap, 0xA00000, 0xBFFFFF, 0x200000, 0x200000, 16, 0xFFFF, .readWrite⟩,
     ⟨.segmap, 0xC00000, 0xDFFFFF, 0x200000, 0x200000, 16, 0xFFFF, .readWrite⟩,
     ⟨.switch, 0xE00000, 0xFFFFFF, 0x200000, 0x200000, 16, 0xFFFF, .readOnly⟩] := by decide

/-- The rows computed from the window table are the mask and match rows of 30_encoding.md R89. -/
theorem busRows_eq : busRows =
    [⟨0xE00000, 0x000000, some .ram⟩,
     ⟨0xFFE000, 0x200000, some .rom0⟩,
     ⟨0xFFE000, 0x400000, some .rom1⟩,
     ⟨0xE1FFF8, 0x600000, some .serial⟩,
     ⟨0xE00000, 0x800000, some .timer⟩,
     ⟨0xE00000, 0xA00000, some .pagemap⟩,
     ⟨0xE00000, 0xC00000, some .segmap⟩,
     ⟨0xE00000, 0xE00000, some .switch⟩,
     ⟨0x000000, 0x000000, none⟩] := by decide

end Sys2Proof.Machine
end

