-- ==== Sys2Proof/Laws/Lanes.lean ====
section
/-! SUPPORT. Lanes and bytes of the bus word: what the byte order and `SERIAL_LANES` come to (20_memory.md R55,
41_window_access.md R140), bytes put on a word and taken off it, word offsets. -/

namespace Sys2Proof.Machine

/-! ## Which lanes a cycle takes in -/

@[simp] theorem onUpper_word (odd : Bool) : onUpper (lanes .word odd) = true := by cases odd <;> rfl
@[simp] theorem onUpper_even : onUpper (lanes .byte false) = true := rfl
@[simp] theorem onUpper_odd : onUpper (lanes .byte true) = false := rfl
@[simp] theorem onLower_word (odd : Bool) : onLower (lanes .word odd) = true := by cases odd <;> rfl
@[simp] theorem onLower_even : onLower (lanes .byte false) = false := rfl
@[simp] theorem onLower_odd : onLower (lanes .byte true) = true := rfl
@[simp] theorem takesIn_even (l : BusWord) : takesIn l evenLane = onUpper l := rfl
@[simp] theorem takesIn_odd (l : BusWord) : takesIn l oddLane = onLower l := rfl
@[simp] theorem takesIn_serial (l : BusWord) : takesIn l serialLanes = onUpper l := rfl

/-! ## The byte of a lane -/

@[simp] theorem laneByte_even (b : BusWord) : laneByte evenLane b = upperByte b := rfl
@[simp] theorem laneByte_odd (b : BusWord) : laneByte oddLane b = lowerByte b := rfl
@[simp] theorem laneByte_serial (b : BusWord) : laneByte serialLanes b = upperByte b := rfl
@[simp] theorem joinLanes_even (v u : Byte) : joinLanes evenLane v u = v ++ u := rfl
@[simp] theorem joinLanes_odd (v u : Byte) : joinLanes oddLane v u = u ++ v := rfl
@[simp] theorem joinLanes_serial (v u : Byte) : joinLanes serialLanes v u = v ++ u := rfl

@[simp] theorem upperByte_append (x y : Byte) : upperByte (x ++ y) = x := by
  apply BitVec.eq_of_getLsbD_eq
  intro i hi
  have h := BitVec.getLsbD_append (x := x) (y := y) (i := 8 + i)
  simp only [upperByte, BitVec.getLsbD_extractLsb', hi, decide_true, Bool.true_and]
  refine h.trans ?_
  simp

@[simp] theorem lowerByte_append (x y : Byte) : lowerByte (x ++ y) = y := by
  apply BitVec.eq_of_getLsbD_eq
  intro i hi
  have h := BitVec.getLsbD_append (x := x) (y := y) (i := 0 + i)
  simp only [lowerByte, BitVec.getLsbD_extractLsb', hi, decide_true, Bool.true_and]
  refine h.trans ?_
  simp [hi]

theorem append_bytes (b : BusWord) : upperByte b ++ lowerByte b = b := by
  apply BitVec.eq_of_getLsbD_eq
  intro i hi
  simp only [upperByte, lowerByte, BitVec.getLsbD_append, BitVec.getLsbD_extractLsb']
  by_cases h : i < 8
  · simp [h]
  · have h2 : i - 8 < 8 := by change i < 16 at hi; omega
    have h3 : 8 + (i - 8) = i := by omega
    simp [h, h2, h3]

/-! ## Word offsets -/

/-- The word offset of an even and of an odd offset (41_window_access.md R130). -/
theorem wordOffset_even {n : Nat} {off : BitVec (n + 1)} (h : off[0] = false) : wordOffset off = off.toNat := by
  have : off.toNat % 2 = 0 := by
    rw [BitVec.getElem_eq_testBit_toNat, Nat.testBit_zero] at h
    simpa using h
  unfold wordOffset
  omega

theorem wordOffset_odd {n : Nat} {off : BitVec (n + 1)} (h : off[0] = true) :
    wordOffset off + 1 = off.toNat := by
  have : off.toNat % 2 = 1 := by
    rw [BitVec.getElem_eq_testBit_toNat, Nat.testBit_zero] at h
    simpa using h
  unfold wordOffset
  omega

end Sys2Proof.Machine
end

