-- ==== Sys2Proof/Laws/State.lean ====
section
/-! SUPPORT. The fields of the state after each update: one lemma per field per update, each true by
unfolding the record, so that no later proof unfolds one. -/

namespace Sys2Proof.Machine

/-! ## `respond` -/

section
variable (s : State) (r : Response)

@[simp] theorem respond_ram : (s.respond r).ram = s.ram := rfl
@[simp] theorem respond_pagemap : (s.respond r).pagemap = s.pagemap := rfl
@[simp] theorem respond_segmap : (s.respond r).segmap = s.segmap := rfl
@[simp] theorem respond_rom0 : (s.respond r).rom0 = s.rom0 := rfl
@[simp] theorem respond_rom1 : (s.respond r).rom1 = s.rom1 := rfl
@[simp] theorem respond_serint : (s.respond r).serint = s.serint := rfl
@[simp] theorem respond_tout2 : (s.respond r).tout2 = s.tout2 := rfl
@[simp] theorem respond_tout3 : (s.respond r).tout3 = s.tout3 := rfl
@[simp] theorem respond_tout4 : (s.respond r).tout4 = s.tout4 := rfl
@[simp] theorem respond_tout5 : (s.respond r).tout5 = s.tout5 := rfl
@[simp] theorem respond_irq5 : (s.respond r).irq5 = s.irq5 := rfl
@[simp] theorem respond_irq6 : (s.respond r).irq6 = s.irq6 := rfl
@[simp] theorem respond_irq7 : (s.respond r).irq7 = s.irq7 := rfl
@[simp] theorem respond_phase : (s.respond r).phase = s.phase := rfl
@[simp] theorem respond_out : (s.respond r).out = s.out := rfl
@[simp] theorem respond_inbox : (s.respond r).inbox = s.inbox := rfl
@[simp] theorem respond_resp : (s.respond r).resp = r := rfl
@[simp] theorem respond_draws : (s.respond r).draws = s.draws := rfl
@[simp] theorem respond_calls : (s.respond r).calls = s.calls := rfl
@[simp] theorem respond_serialAnswers : (s.respond r).serialAnswers = s.serialAnswers := rfl
@[simp] theorem respond_timerAnswers : (s.respond r).timerAnswers = s.timerAnswers := rfl

end

/-! ## `emit` -/

section
variable (s : State) (e : OutEvent)

@[simp] theorem emit_ram : (s.emit e).ram = s.ram := rfl
@[simp] theorem emit_pagemap : (s.emit e).pagemap = s.pagemap := rfl
@[simp] theorem emit_segmap : (s.emit e).segmap = s.segmap := rfl
@[simp] theorem emit_rom0 : (s.emit e).rom0 = s.rom0 := rfl
@[simp] theorem emit_rom1 : (s.emit e).rom1 = s.rom1 := rfl
@[simp] theorem emit_serint : (s.emit e).serint = s.serint := rfl
@[simp] theorem emit_tout2 : (s.emit e).tout2 = s.tout2 := rfl
@[simp] theorem emit_tout3 : (s.emit e).tout3 = s.tout3 := rfl
@[simp] theorem emit_tout4 : (s.emit e).tout4 = s.tout4 := rfl
@[simp] theorem emit_tout5 : (s.emit e).tout5 = s.tout5 := rfl
@[simp] theorem emit_irq5 : (s.emit e).irq5 = s.irq5 := rfl
@[simp] theorem emit_irq6 : (s.emit e).irq6 = s.irq6 := rfl
@[simp] theorem emit_irq7 : (s.emit e).irq7 = s.irq7 := rfl
@[simp] theorem emit_phase : (s.emit e).phase = s.phase := rfl
@[simp] theorem emit_out : (s.emit e).out = s.out ++ [e] := rfl
@[simp] theorem emit_inbox : (s.emit e).inbox = s.inbox := rfl
@[simp] theorem emit_resp : (s.emit e).resp = s.resp := rfl
@[simp] theorem emit_draws : (s.emit e).draws = s.draws := rfl
@[simp] theorem emit_calls : (s.emit e).calls = s.calls := rfl
@[simp] theorem emit_serialAnswers : (s.emit e).serialAnswers = s.serialAnswers := rfl
@[simp] theorem emit_timerAnswers : (s.emit e).timerAnswers = s.timerAnswers := rfl

end

/-! ## `drawn` -/

section
variable (s : State)

@[simp] theorem drawn_ram : (s.drawn).ram = s.ram := rfl
@[simp] theorem drawn_pagemap : (s.drawn).pagemap = s.pagemap := rfl
@[simp] theorem drawn_segmap : (s.drawn).segmap = s.segmap := rfl
@[simp] theorem drawn_rom0 : (s.drawn).rom0 = s.rom0 := rfl
@[simp] theorem drawn_rom1 : (s.drawn).rom1 = s.rom1 := rfl
@[simp] theorem drawn_serint : (s.drawn).serint = s.serint := rfl
@[simp] theorem drawn_tout2 : (s.drawn).tout2 = s.tout2 := rfl
@[simp] theorem drawn_tout3 : (s.drawn).tout3 = s.tout3 := rfl
@[simp] theorem drawn_tout4 : (s.drawn).tout4 = s.tout4 := rfl
@[simp] theorem drawn_tout5 : (s.drawn).tout5 = s.tout5 := rfl
@[simp] theorem drawn_irq5 : (s.drawn).irq5 = s.irq5 := rfl
@[simp] theorem drawn_irq6 : (s.drawn).irq6 = s.irq6 := rfl
@[simp] theorem drawn_irq7 : (s.drawn).irq7 = s.irq7 := rfl
@[simp] theorem drawn_phase : (s.drawn).phase = s.phase := rfl
@[simp] theorem drawn_out : (s.drawn).out = s.out := rfl
@[simp] theorem drawn_inbox : (s.drawn).inbox = s.inbox := rfl
@[simp] theorem drawn_resp : (s.drawn).resp = s.resp := rfl
@[simp] theorem drawn_draws : (s.drawn).draws = s.draws + 1 := rfl
@[simp] theorem drawn_calls : (s.drawn).calls = s.calls := rfl
@[simp] theorem drawn_serialAnswers : (s.drawn).serialAnswers = s.serialAnswers := rfl
@[simp] theorem drawn_timerAnswers : (s.drawn).timerAnswers = s.timerAnswers := rfl

end

/-! ## `logCall` -/

section
variable (s : State) (c : DevCall)

@[simp] theorem logCall_ram : (s.logCall c).ram = s.ram := rfl
@[simp] theorem logCall_pagemap : (s.logCall c).pagemap = s.pagemap := rfl
@[simp] theorem logCall_segmap : (s.logCall c).segmap = s.segmap := rfl
@[simp] theorem logCall_rom0 : (s.logCall c).rom0 = s.rom0 := rfl
@[simp] theorem logCall_rom1 : (s.logCall c).rom1 = s.rom1 := rfl
@[simp] theorem logCall_serint : (s.logCall c).serint = s.serint := rfl
@[simp] theorem logCall_tout2 : (s.logCall c).tout2 = s.tout2 := rfl
@[simp] theorem logCall_tout3 : (s.logCall c).tout3 = s.tout3 := rfl
@[simp] theorem logCall_tout4 : (s.logCall c).tout4 = s.tout4 := rfl
@[simp] theorem logCall_tout5 : (s.logCall c).tout5 = s.tout5 := rfl
@[simp] theorem logCall_irq5 : (s.logCall c).irq5 = s.irq5 := rfl
@[simp] theorem logCall_irq6 : (s.logCall c).irq6 = s.irq6 := rfl
@[simp] theorem logCall_irq7 : (s.logCall c).irq7 = s.irq7 := rfl
@[simp] theorem logCall_phase : (s.logCall c).phase = s.phase := rfl
@[simp] theorem logCall_out : (s.logCall c).out = s.out := rfl
@[simp] theorem logCall_inbox : (s.logCall c).inbox = s.inbox := rfl
@[simp] theorem logCall_resp : (s.logCall c).resp = s.resp := rfl
@[simp] theorem logCall_draws : (s.logCall c).draws = s.draws := rfl
@[simp] theorem logCall_calls : (s.logCall c).calls = s.calls ++ [c] := rfl
@[simp] theorem logCall_serialAnswers : (s.logCall c).serialAnswers = s.serialAnswers := rfl
@[simp] theorem logCall_timerAnswers : (s.logCall c).timerAnswers = s.timerAnswers := rfl

end

/-! ## `askSerial` -/

section
variable (s : State) (c : DevCall)

@[simp] theorem askSerial_ram : (s.askSerial c).ram = s.ram := rfl
@[simp] theorem askSerial_pagemap : (s.askSerial c).pagemap = s.pagemap := rfl
@[simp] theorem askSerial_segmap : (s.askSerial c).segmap = s.segmap := rfl
@[simp] theorem askSerial_rom0 : (s.askSerial c).rom0 = s.rom0 := rfl
@[simp] theorem askSerial_rom1 : (s.askSerial c).rom1 = s.rom1 := rfl
@[simp] theorem askSerial_serint : (s.askSerial c).serint = s.serint := rfl
@[simp] theorem askSerial_tout2 : (s.askSerial c).tout2 = s.tout2 := rfl
@[simp] theorem askSerial_tout3 : (s.askSerial c).tout3 = s.tout3 := rfl
@[simp] theorem askSerial_tout4 : (s.askSerial c).tout4 = s.tout4 := rfl
@[simp] theorem askSerial_tout5 : (s.askSerial c).tout5 = s.tout5 := rfl
@[simp] theorem askSerial_irq5 : (s.askSerial c).irq5 = s.irq5 := rfl
@[simp] theorem askSerial_irq6 : (s.askSerial c).irq6 = s.irq6 := rfl
@[simp] theorem askSerial_irq7 : (s.askSerial c).irq7 = s.irq7 := rfl
@[simp] theorem askSerial_phase : (s.askSerial c).phase = s.phase := rfl
@[simp] theorem askSerial_out : (s.askSerial c).out = s.out := rfl
@[simp] theorem askSerial_inbox : (s.askSerial c).inbox = s.inbox := rfl
@[simp] theorem askSerial_resp : (s.askSerial c).resp = s.resp := rfl
@[simp] theorem askSerial_draws : (s.askSerial c).draws = s.draws + 1 := rfl
@[simp] theorem askSerial_calls : (s.askSerial c).calls = s.calls ++ [c] := rfl
@[simp] theorem askSerial_serialAnswers : (s.askSerial c).serialAnswers = s.serialAnswers.tail := rfl
@[simp] theorem askSerial_timerAnswers : (s.askSerial c).timerAnswers = s.timerAnswers := rfl

end

/-! ## `askTimer` -/

section
variable (s : State) (c : DevCall)

@[simp] theorem askTimer_ram : (s.askTimer c).ram = s.ram := rfl
@[simp] theorem askTimer_pagemap : (s.askTimer c).pagemap = s.pagemap := rfl
@[simp] theorem askTimer_segmap : (s.askTimer c).segmap = s.segmap := rfl
@[simp] theorem askTimer_rom0 : (s.askTimer c).rom0 = s.rom0 := rfl
@[simp] theorem askTimer_rom1 : (s.askTimer c).rom1 = s.rom1 := rfl
@[simp] theorem askTimer_serint : (s.askTimer c).serint = s.serint := rfl
@[simp] theorem askTimer_tout2 : (s.askTimer c).tout2 = s.tout2 := rfl
@[simp] theorem askTimer_tout3 : (s.askTimer c).tout3 = s.tout3 := rfl
@[simp] theorem askTimer_tout4 : (s.askTimer c).tout4 = s.tout4 := rfl
@[simp] theorem askTimer_tout5 : (s.askTimer c).tout5 = s.tout5 := rfl
@[simp] theorem askTimer_irq5 : (s.askTimer c).irq5 = s.irq5 := rfl
@[simp] theorem askTimer_irq6 : (s.askTimer c).irq6 = s.irq6 := rfl
@[simp] theorem askTimer_irq7 : (s.askTimer c).irq7 = s.irq7 := rfl
@[simp] theorem askTimer_phase : (s.askTimer c).phase = s.phase := rfl
@[simp] theorem askTimer_out : (s.askTimer c).out = s.out := rfl
@[simp] theorem askTimer_inbox : (s.askTimer c).inbox = s.inbox := rfl
@[simp] theorem askTimer_resp : (s.askTimer c).resp = s.resp := rfl
@[simp] theorem askTimer_draws : (s.askTimer c).draws = s.draws + 1 := rfl
@[simp] theorem askTimer_calls : (s.askTimer c).calls = s.calls ++ [c] := rfl
@[simp] theorem askTimer_serialAnswers : (s.askTimer c).serialAnswers = s.serialAnswers := rfl
@[simp] theorem askTimer_timerAnswers : (s.askTimer c).timerAnswers = s.timerAnswers.tail := rfl

end

/-! ## `issue` -/

section
variable (s : State) (r : Request)

@[simp] theorem issue_ram : (s.issue r).ram = s.ram := rfl
@[simp] theorem issue_pagemap : (s.issue r).pagemap = s.pagemap := rfl
@[simp] theorem issue_segmap : (s.issue r).segmap = s.segmap := rfl
@[simp] theorem issue_rom0 : (s.issue r).rom0 = s.rom0 := rfl
@[simp] theorem issue_rom1 : (s.issue r).rom1 = s.rom1 := rfl
@[simp] theorem issue_serint : (s.issue r).serint = s.serint := rfl
@[simp] theorem issue_tout2 : (s.issue r).tout2 = s.tout2 := rfl
@[simp] theorem issue_tout3 : (s.issue r).tout3 = s.tout3 := rfl
@[simp] theorem issue_tout4 : (s.issue r).tout4 = s.tout4 := rfl
@[simp] theorem issue_tout5 : (s.issue r).tout5 = s.tout5 := rfl
@[simp] theorem issue_irq5 : (s.issue r).irq5 = s.irq5 := rfl
@[simp] theorem issue_irq6 : (s.issue r).irq6 = s.irq6 := rfl
@[simp] theorem issue_irq7 : (s.issue r).irq7 = s.irq7 := rfl
@[simp] theorem issue_phase : (s.issue r).phase = s.phase := rfl
@[simp] theorem issue_out : (s.issue r).out = s.out := rfl
@[simp] theorem issue_inbox : (s.issue r).inbox = r :: s.inbox := rfl
@[simp] theorem issue_resp : (s.issue r).resp = s.resp := rfl
@[simp] theorem issue_draws : (s.issue r).draws = s.draws := rfl
@[simp] theorem issue_calls : (s.issue r).calls = s.calls := rfl
@[simp] theorem issue_serialAnswers : (s.issue r).serialAnswers = s.serialAnswers := rfl
@[simp] theorem issue_timerAnswers : (s.issue r).timerAnswers = s.timerAnswers := rfl

end

/-! ## `withStubs` -/

section
variable (s : State) (p g : Memory)

@[simp] theorem withStubs_ram : (s.withStubs p g).ram = s.ram := rfl
@[simp] theorem withStubs_pagemap : (s.withStubs p g).pagemap = p := rfl
@[simp] theorem withStubs_segmap : (s.withStubs p g).segmap = g := rfl
@[simp] theorem withStubs_rom0 : (s.withStubs p g).rom0 = s.rom0 := rfl
@[simp] theorem withStubs_rom1 : (s.withStubs p g).rom1 = s.rom1 := rfl
@[simp] theorem withStubs_serint : (s.withStubs p g).serint = s.serint := rfl
@[simp] theorem withStubs_tout2 : (s.withStubs p g).tout2 = s.tout2 := rfl
@[simp] theorem withStubs_tout3 : (s.withStubs p g).tout3 = s.tout3 := rfl
@[simp] theorem withStubs_tout4 : (s.withStubs p g).tout4 = s.tout4 := rfl
@[simp] theorem withStubs_tout5 : (s.withStubs p g).tout5 = s.tout5 := rfl
@[simp] theorem withStubs_irq5 : (s.withStubs p g).irq5 = s.irq5 := rfl
@[simp] theorem withStubs_irq6 : (s.withStubs p g).irq6 = s.irq6 := rfl
@[simp] theorem withStubs_irq7 : (s.withStubs p g).irq7 = s.irq7 := rfl
@[simp] theorem withStubs_phase : (s.withStubs p g).phase = s.phase := rfl
@[simp] theorem withStubs_out : (s.withStubs p g).out = s.out := rfl
@[simp] theorem withStubs_inbox : (s.withStubs p g).inbox = s.inbox := rfl
@[simp] theorem withStubs_resp : (s.withStubs p g).resp = s.resp := rfl
@[simp] theorem withStubs_draws : (s.withStubs p g).draws = s.draws := rfl
@[simp] theorem withStubs_calls : (s.withStubs p g).calls = s.calls := rfl
@[simp] theorem withStubs_serialAnswers : (s.withStubs p g).serialAnswers = s.serialAnswers := rfl
@[simp] theorem withStubs_timerAnswers : (s.withStubs p g).timerAnswers = s.timerAnswers := rfl

end

/-! ## `setMem` -/

section
variable (s : State) (st : Store) (m : Memory)

@[simp] theorem setMem_rom0 : (s.setMem st m).rom0 = s.rom0 := by cases st <;> rfl
@[simp] theorem setMem_rom1 : (s.setMem st m).rom1 = s.rom1 := by cases st <;> rfl
@[simp] theorem setMem_serint : (s.setMem st m).serint = s.serint := by cases st <;> rfl
@[simp] theorem setMem_tout2 : (s.setMem st m).tout2 = s.tout2 := by cases st <;> rfl
@[simp] theorem setMem_tout3 : (s.setMem st m).tout3 = s.tout3 := by cases st <;> rfl
@[simp] theorem setMem_tout4 : (s.setMem st m).tout4 = s.tout4 := by cases st <;> rfl
@[simp] theorem setMem_tout5 : (s.setMem st m).tout5 = s.tout5 := by cases st <;> rfl
@[simp] theorem setMem_irq5 : (s.setMem st m).irq5 = s.irq5 := by cases st <;> rfl
@[simp] theorem setMem_irq6 : (s.setMem st m).irq6 = s.irq6 := by cases st <;> rfl
@[simp] theorem setMem_irq7 : (s.setMem st m).irq7 = s.irq7 := by cases st <;> rfl
@[simp] theorem setMem_phase : (s.setMem st m).phase = s.phase := by cases st <;> rfl
@[simp] theorem setMem_out : (s.setMem st m).out = s.out := by cases st <;> rfl
@[simp] theorem setMem_inbox : (s.setMem st m).inbox = s.inbox := by cases st <;> rfl
@[simp] theorem setMem_resp : (s.setMem st m).resp = s.resp := by cases st <;> rfl
@[simp] theorem setMem_draws : (s.setMem st m).draws = s.draws := by cases st <;> rfl
@[simp] theorem setMem_calls : (s.setMem st m).calls = s.calls := by cases st <;> rfl
@[simp] theorem setMem_serialAnswers : (s.setMem st m).serialAnswers = s.serialAnswers := by cases st <;> rfl
@[simp] theorem setMem_timerAnswers : (s.setMem st m).timerAnswers = s.timerAnswers := by cases st <;> rfl

@[simp] theorem mem_setMem : (s.setMem st m).mem st = m := by cases st <;> rfl
@[simp] theorem mem_setMem_ne {st' : Store} (h : st' ≠ st) : (s.setMem st m).mem st' = s.mem st' := by
  cases st <;> cases st' <;> first | rfl | exact absurd rfl h
@[simp] theorem setMem_mem : s.setMem st (s.mem st) = s := by cases st <;> rfl
@[simp] theorem setMem_setMem (m' : Memory) : (s.setMem st m).setMem st m' = s.setMem st m' := by cases st <;> rfl

end

/-! ## Reading what does not depend on the update -/

@[simp] theorem cell_respond (s : State) (r : Response) (st : Store) (i : Nat) :
    (s.respond r).cell st i = s.cell st i := by cases st <;> rfl
@[simp] theorem romCell_respond (s : State) (r : Response) (b : Bank) (i : Nat) :
    (s.respond r).romCell b i = s.romCell b i := by cases b <;> rfl
@[simp] theorem mem_respond (s : State) (r : Response) (st : Store) : (s.respond r).mem st = s.mem st := by
  cases st <;> rfl
@[simp] theorem respond_respond (s : State) (r r' : Response) : (s.respond r).respond r' = s.respond r' := rfl
@[simp] theorem irqOut_respond (s : State) (r : Response) (l : Nat) : (s.respond r).irqOut l = s.irqOut l := rfl
@[simp] theorem lineLevel_respond (s : State) (r : Response) (x : LineSrc) :
    (s.respond r).lineLevel x = s.lineLevel x := by cases x <;> rfl

end Sys2Proof.Machine
end

