-- ==== Sys2Proof/Laws/Memory.lean ====
section
/-! SUPPORT. Storage: reading after writing, the canonical form, and what the storage handlers do. -/

namespace Sys2Proof.Machine

theorem read_write (m : Memory) (i j : Nat) (v : Byte) :
    Memory.read (Memory.write m i v) j = if j = i then some v else Memory.read m j := by
  induction m with
  | nil => simp only [Memory.write, Memory.read, eq_comm]
  | cons c m ih =>
    obtain ⟨k, w⟩ := c
    simp only [Memory.write]
    split
    · simp only [Memory.read, eq_comm]
    · split
      · subst k
        simp only [Memory.read]
        by_cases h : j = i
        · simp [h]
        · simp [h, Ne.symm h]
      · simp only [Memory.read, ih]
        by_cases hk : k = j
        · have : j ≠ i := by omega
          simp [hk, this]
        · simp [hk]

/-- Every cell after a write is the written one or an old one. -/
theorem mem_write {m : Memory} {i : Nat} {v : Byte} {c : Host.Cell} (h : c ∈ Memory.write m i v) :
    c = (i, v) ∨ c ∈ m := by
  induction m with
  | nil => simpa [Memory.write] using h
  | cons d m ih =>
    obtain ⟨k, w⟩ := d
    simp only [Memory.write] at h
    split at h
    · simpa using h
    · split at h
      · rcases List.mem_cons.1 h with h | h
        · exact .inl h
        · exact .inr (List.mem_cons_of_mem _ h)
      · rcases List.mem_cons.1 h with h | h
        · exact .inr (by simp [h])
        · rcases ih h with h | h
          · exact .inl h
          · exact .inr (List.mem_cons_of_mem _ h)

/-- A write keeps the canonical form. -/
theorem write_wf {n : Nat} {m : Memory} {i : Nat} (v : Byte) (h : Memory.wf n m) (hi : i < n) :
    Memory.wf n (Memory.write m i v) := by
  refine ⟨?_, fun c hc => ?_⟩
  · obtain ⟨h, -⟩ := h
    induction m with
    | nil => simp [Memory.write]
    | cons d m ih =>
      obtain ⟨k, w⟩ := d
      obtain ⟨hk, hm⟩ := List.pairwise_cons.1 h
      simp only [Memory.write]
      split
      · refine List.pairwise_cons.2 ⟨fun c hc => ?_, h⟩
        rcases List.mem_cons.1 hc with rfl | hc
        · assumption
        · have := hk c hc
          simp only at this ⊢
          omega
      · split
        · subst k
          exact List.pairwise_cons.2 ⟨hk, hm⟩
        · refine List.pairwise_cons.2 ⟨fun c hc => ?_, ih hm⟩
          rcases mem_write hc with rfl | hc
          · simp only
            omega
          · exact hk c hc
  · rcases mem_write hc with rfl | hc
    · exact hi
    · exact h.2 c hc

theorem empty_wf (n : Nat) : Memory.wf n [] := ⟨List.Pairwise.nil, by simp⟩

/-- What a cell reads after a write to a cell. -/
theorem cell_setCell (s : State) (st st' : Store) (i j : Nat) (v : Byte) :
    (s.setCell st i v).cell st' j = if st' = st ∧ j = i then v else s.cell st' j := by
  by_cases h : st' = st
  · subst h
    simp only [State.cell, State.setCell, mem_setMem, read_write, true_and]
    split <;> simp
  · simp [State.cell, State.setCell, mem_setMem_ne, h]

/-- A cell write inside its array keeps all three arrays canonical. -/
theorem setCell_wf {s : State} (h : ∀ st, Memory.wf (storeSize st) (s.mem st)) {st : Store} {i : Nat}
    (hi : i < storeSize st) (v : Byte) (st' : Store) :
    Memory.wf (storeSize st') ((s.setCell st i v).mem st') := by
  by_cases e : st' = st
  · subst e
    simpa only [State.setCell, mem_setMem] using write_wf v (h st') hi
  · simpa only [State.setCell, mem_setMem_ne _ _ _ e] using h st'

/-- `StoreWrite` inside its array keeps them canonical (41_window_access.md R139). -/
theorem storeWrite_wf {s : State} (h : ∀ st, Memory.wf (storeSize st) (s.mem st)) {st : Store} {wo : Nat}
    (hw : wo + 1 < storeSize st) (b l : BusWord) (st' : Store) :
    Memory.wf (storeSize st') ((s.storeWrite st wo b l).mem st') := by
  have h1 : wo < storeSize st := by omega
  unfold State.storeWrite
  split <;> split
  · exact setCell_wf (setCell_wf h h1 _) hw _ st'
  · exact setCell_wf h h1 _ st'
  · exact setCell_wf h hw _ st'
  · exact h st'

/-- The copy of RESET keeps them canonical (43_boot_sequencer.md R201). -/
theorem bootCopy_wf {s : State} (h : ∀ st, Memory.wf (storeSize st) (s.mem st)) (st' : Store) :
    Memory.wf (storeSize st') (s.bootCopy.mem st') := by
  have key : ∀ (l : List Nat) (t : State), (∀ i ∈ l, i < storeSize .ram) →
      (∀ st, Memory.wf (storeSize st) (t.mem st)) →
      ∀ st, Memory.wf (storeSize st) ((l.foldl (fun u i => u.setCell .ram i (s.romCell .rom0 i)) t).mem st) := by
    intro l
    induction l with
    | nil => exact fun t _ ht => ht
    | cons i l ih =>
      intro t hl ht
      exact ih _ (fun k hk => hl k (List.mem_cons_of_mem _ hk)) (setCell_wf ht (hl i List.mem_cons_self) _)
  refine key (List.range bootCopyLen) s (fun i hi => ?_) h st'
  have := List.mem_range.1 hi
  simp only [bootCopyLen, storeSize, ramSize_eq] at this ⊢
  omega

/-- The state after reset has its arrays in canonical form. -/
theorem reset_wf (st : Store) : Memory.wf (storeSize st) (State.reset.mem st) := by
  cases st
  · constructor
    · simp [State.mem, State.reset, bootCells, bootCopyLen, List.range, List.range.loop]
    · simp [State.mem, State.reset, bootCells, bootCopyLen, List.range, List.range.loop, storeSize, ramSize_eq]
  · exact empty_wf _
  · exact empty_wf _

theorem setCell_eq (s : State) (st : Store) (i : Nat) (v : Byte) :
    s.setCell st i v = s.setMem st (Memory.write (s.mem st) i v) := rfl

/-- A cell write changes its array only. -/
theorem romCell_setCell (s : State) (st : Store) (i j : Nat) (v : Byte) (b : Bank) :
    (s.setCell st i v).romCell b j = s.romCell b j := by cases st <;> cases b <;> rfl

/-- `StoreWrite` changes its array only (41_window_access.md R139). -/
theorem storeWrite_eq (s : State) (st : Store) (wo : Nat) (b l : BusWord) :
    s.storeWrite st wo b l = s.setMem st ((s.storeWrite st wo b l).mem st) := by
  unfold State.storeWrite
  split <;> split <;> cases st <;> rfl

/-- `StoreWrite` by lanes (41_window_access.md R139): both, one or no byte is stored. -/
theorem storeWrite_word (s : State) (st : Store) (wo : Nat) (b : BusWord) :
    s.storeWrite st wo b (lanes .word false) =
      (s.setCell st wo (upperByte b)).setCell st (wo + 1) (lowerByte b) := rfl

theorem storeWrite_even (s : State) (st : Store) (wo : Nat) (b : BusWord) :
    s.storeWrite st wo b (lanes .byte false) = s.setCell st wo (upperByte b) := rfl

theorem storeWrite_odd (s : State) (st : Store) (wo : Nat) (b : BusWord) :
    s.storeWrite st wo b (lanes .byte true) = s.setCell st (wo + 1) (lowerByte b) := rfl

end Sys2Proof.Machine
end

