-- ==== Sys2Proof/Laws/Ops.lean ====
section
/-! SUPPORT. For each shared operation, once, everything it can do. -/

namespace Sys2Proof.Machine

/-! ## The common part of the operations -/

/-- A bus read answers a next state exactly where it is admitted and aligned, and then this one. -/
theorem busRead_next {size : Size} {odd : Bool} {h : BusWord → State → BusWord × State} {s t : State} :
    busRead size odd h s = .next t ↔
      s.phase = .running ∧ size.aligned odd = true ∧
        t = ((h (lanes size odd) s).2.respond (laneResponse size odd (h (lanes size odd) s).1)) := by
  unfold busRead busCycle State.admitsBus
  by_cases hp : s.phase = .running <;> by_cases ha : size.aligned odd = true <;> simp [hp, ha]
  exact eq_comm

/-- The same for a bus write. -/
theorem busWrite_next {d : WData} {odd : Bool} {h : BusWord → BusWord → State → State} {s t : State} :
    busWrite d odd h s = .next t ↔
      s.phase = .running ∧ d.size.aligned odd = true ∧
        t = ((h (busWord d odd) (lanes d.size odd) s).respond .done) := by
  unfold busWrite busCycle State.admitsBus
  by_cases hp : s.phase = .running <;> by_cases ha : d.size.aligned odd = true <;> simp [hp, ha]
  exact eq_comm

/-- A SETLINE answers a next state exactly where it is admitted. -/
theorem lineOp_next {f : State → State} {s t : State} :
    lineOp f s = .next t ↔ s.phase ≠ .unbuilt ∧ t = (f s).respond .done := by
  unfold lineOp State.admitsLine
  cases hp : s.phase <;> simp
  · exact eq_comm
  · exact eq_comm

/-- The frame of a bus cycle: the cycle's own outcome, or a refusal. -/
theorem busCycle_cases (size : Size) (odd : Bool) (s : State) (k : Host.Outcome State Fault Refusal) :
    (s.phase = .running ∧ size.aligned odd = true ∧ busCycle size odd s k = k) ∨
    (s.phase = .running ∧ size.aligned odd = false ∧ busCycle size odd s k = .refused .oddWord) ∨
    (s.phase ≠ .running ∧ busCycle size odd s k = .refused (.notAdmitted s.phase)) := by
  unfold busCycle State.admitsBus
  by_cases hp : s.phase = .running <;> by_cases ha : size.aligned odd = true <;> simp [hp, ha]

/-- An unmapped cycle answers a next state exactly where it is admitted, aligned and unmapped. -/
theorem unmappedCycle_next {size : Size} {a : Addr} {s t : State} :
    unmappedCycle size a s = .next t ↔
      s.phase = .running ∧ size.aligned a[0] = true ∧ resolveAddr a = none ∧
        t = s.respond (.error (.unmappedAccess a)) := by
  unfold unmappedCycle busCycle State.admitsBus
  by_cases hp : s.phase = .running <;> by_cases ha : size.aligned a[0] = true <;>
    cases hr : resolveAddr a <;> simp [hp, ha, State.raise]
  exact eq_comm

/-! ## Lines -/

/-- SETLINE SER_INT: nothing where the level is already there, else the two levels and one event. -/
theorem setSerInt_cases (s : State) (v : Bool) :
    (s.serint = v ∧ s.setSerInt v = s) ∨
    (s.serint = !v ∧
      s.setSerInt v = { s with serint := v, irq5 := v, out := s.out ++ [.cpuIrq irqSerial v] }) := by
  unfold State.setSerInt
  by_cases h : s.serint = v
  · exact .inl ⟨h, by simp [h]⟩
  · refine .inr ⟨?_, by simp [h, State.emit]⟩
    revert h
    cases s.serint <;> cases v <;> simp

theorem setTmrOut2_cases (s : State) (v : Bool) :
    (s.tout2 = v ∧ s.setTmrOut2 v = s) ∨
    (s.tout2 = !v ∧
      s.setTmrOut2 v = { s with tout2 := v, irq6 := v, out := s.out ++ [.cpuIrq irqTimer2 v] }) := by
  unfold State.setTmrOut2
  by_cases h : s.tout2 = v
  · exact .inl ⟨h, by simp [h]⟩
  · refine .inr ⟨?_, by simp [h, State.emit]⟩
    revert h
    cases s.tout2 <;> cases v <;> simp

theorem setTmrOut3_cases (s : State) (v : Bool) :
    (s.tout3 = v ∧ s.setTmrOut3 v = s) ∨
    (s.tout3 = !v ∧
      s.setTmrOut3 v = { s with tout3 := v, irq7 := v, out := s.out ++ [.cpuIrq irqTimer3 v] }) := by
  unfold State.setTmrOut3
  by_cases h : s.tout3 = v
  · exact .inl ⟨h, by simp [h]⟩
  · refine .inr ⟨?_, by simp [h, State.emit]⟩
    revert h
    cases s.tout3 <;> cases v <;> simp

theorem setTmrOut4_cases (s : State) (v : Bool) :
    (s.tout4 = v ∧ s.setTmrOut4 v = s) ∨
    (s.tout4 = !v ∧
      s.setTmrOut4 v =
        State.callSerial { s with tout4 := v, out := s.out ++ [.serialClk .A v] } (.serialClk .A v)) := by
  unfold State.setTmrOut4
  by_cases h : s.tout4 = v
  · exact .inl ⟨h, by simp [h]⟩
  · refine .inr ⟨?_, by simp [h, State.emit]⟩
    revert h
    cases s.tout4 <;> cases v <;> simp

theorem setTmrOut5_cases (s : State) (v : Bool) :
    (s.tout5 = v ∧ s.setTmrOut5 v = s) ∨
    (s.tout5 = !v ∧
      s.setTmrOut5 v =
        State.callSerial { s with tout5 := v, out := s.out ++ [.serialClk .B v] } (.serialClk .B v)) := by
  unfold State.setTmrOut5
  by_cases h : s.tout5 = v
  · exact .inl ⟨h, by simp [h]⟩
  · refine .inr ⟨?_, by simp [h, State.emit]⟩
    revert h
    cases s.tout5 <;> cases v <;> simp

/-- A line ends at the last of a list of levels, whether or not the repeated ones are left out. -/
theorem newLevels_getLast (d : Bool) (ls : List Bool) :
    (newLevels d ls).getLast?.getD d = ls.getLast?.getD d := by
  induction ls generalizing d with
  | nil => rfl
  | cons l ls ih =>
    by_cases h : l = d
    · subst h
      simp [newLevels, List.getLast?_cons, ih]
    · simp [newLevels, h, List.getLast?_cons, ih]

/-- The SETLINE SER_INTs of one answer, in order: the line ends at the last level, level 5 at the last new one,
and the trace gains one event for each new level; nothing else moves. -/
theorem setSerInts_eq (ls : List Bool) (s : State) :
    ls.foldl State.setSerInt s =
      { s with
        serint := ls.getLast?.getD s.serint
        irq5 := (newLevels s.serint ls).getLast?.getD s.irq5
        out := s.out ++ (newLevels s.serint ls).map (OutEvent.cpuIrq irqSerial) } := by
  induction ls generalizing s with
  | nil => simp [newLevels]
  | cons l ls ih =>
    rcases setSerInt_cases s l with ⟨hl, h⟩ | ⟨hl, h⟩
    · rw [List.foldl_cons, h, ih]
      simp [newLevels, List.getLast?_cons, hl]
    · have hne : l ≠ s.serint := by simp [hl]
      rw [List.foldl_cons, h, ih]
      simp [newLevels, List.getLast?_cons, hne]

/-- A call into the serial chip: the call is recorded, one answer is used up, and of the block's own state
only the serial line, level 5 and the trace move, as its SETLINEs say. -/
theorem callSerial_eq (s : State) (c : DevCall) :
    s.callSerial c =
      { s with
        serint := (s.serialAnswer c).ints.getLast?.getD s.serint
        irq5 := (newLevels s.serint (s.serialAnswer c).ints).getLast?.getD s.irq5
        out := s.out ++ (newLevels s.serint (s.serialAnswer c).ints).map (OutEvent.cpuIrq irqSerial)
        calls := s.calls ++ [c], serialAnswers := s.serialAnswers.tail, draws := s.draws + 1 } :=
  setSerInts_eq (s.serialAnswer c).ints (s.askSerial c)

/-- The serial collaborator's answer, where the state lists one (log 7). -/
theorem serialAnswer_listed {s : State} {x : SerialAnswer} {rest : List SerialAnswer}
    (h : s.serialAnswers = x :: rest) (c : DevCall) : s.serialAnswer c = x := by
  simp [State.serialAnswer, h]

theorem timerAnswer_listed {s : State} {x : TimerAnswer} {rest : List TimerAnswer}
    (h : s.timerAnswers = x :: rest) (c : DevCall) : s.timerAnswer c = x := by
  simp [State.timerAnswer, h]

/-! ## RESET -/

/-- The copy of RESET: bytes 0 to 7 of RAM become those of ROM bank 0, nothing else moves
(43_boot_sequencer.md R201, R205). -/
theorem bootCopy_eq (s : State) :
    s.bootCopy = s.setMem .ram
      ((List.range bootCopyLen).foldl (fun m i => Memory.write m i (s.romCell .rom0 i)) s.ram) := by
  have key : ∀ (l : List Nat) (t : State), t.rom0 = s.rom0 →
      l.foldl (fun u i => u.setCell .ram i (s.romCell .rom0 i)) t =
        t.setMem .ram (l.foldl (fun m i => Memory.write m i (s.romCell .rom0 i)) t.ram) := by
    intro l
    induction l with
    | nil => intro t _; rfl
    | cons i l ih =>
      intro t ht
      rw [List.foldl_cons, ih _ (by simpa [State.setCell] using ht)]
      rfl
  exact key _ s rfl

/-- The bytes of RAM after the copy of RESET. -/
theorem bootCopy_cell (s : State) (i : Nat) :
    s.bootCopy.cell .ram i = if i < bootCopyLen then s.romCell .rom0 i else s.cell .ram i := by
  have key : ∀ (l : List Nat) (t : State),
      (l.foldl (fun u i => u.setCell .ram i (s.romCell .rom0 i)) t).cell .ram i =
        if i ∈ l then s.romCell .rom0 i else t.cell .ram i := by
    intro l
    induction l with
    | nil => intro t; simp
    | cons k l ih =>
      intro t
      rw [List.foldl_cons, ih]
      by_cases hk : i ∈ l
      · simp [hk]
      · by_cases hi : i = k
        · subst hi
          simp [hk, cell_setCell]
        · simp [hk, hi, cell_setCell]
  simpa [State.bootCopy] using key (List.range bootCopyLen) s

end Sys2Proof.Machine
end

