-- ==== Sys2Proof/Laws/Arms.lean ====
section
/-! SUPPORT. Each operation's meaning as the shared operation it is, so that no proof unfolds `exec`. -/

namespace Sys2Proof.Machine

section
variable (s : State)

theorem exec_storeRead (st : Store) (size : Size) (off : BitVec 21) :
    exec (storeReadInstr st size off) s = busRead size off[0] (readStore st (wordOffset off)) s := by
  cases st <;> rfl

theorem exec_storeWrite (st : Store) (off : BitVec 21) (d : WData) :
    exec (storeWriteInstr st off d) s = busWrite d off[0] (writeStore st (wordOffset off)) s := by
  cases st <;> rfl

theorem exec_bankRead (b : Bank) (size : Size) (off : BitVec 13) :
    exec (bankReadInstr b size off) s = busRead size off[0] (readBank b (wordOffset off)) s := by
  cases b <;> rfl

theorem exec_bankWrite (b : Bank) (off : BitVec 13) (d : WData) :
    exec (bankWriteInstr b off d) s = busWrite d off[0] dropWrite s := by cases b <;> rfl

theorem exec_rdSerial (size : Size) (off : BitVec 3) :
    exec (.rdSerial size off) s = busRead size off[0] (readSerial off) s := rfl

theorem exec_wrSerial (off : BitVec 3) (d : WData) :
    exec (.wrSerial off d) s = busWrite d off[0] (writeSerial off) s := rfl

theorem exec_rdTimer (size : Size) (off : BitVec 2) :
    exec (.rdTimer size off) s = busRead size off[0] (readTimer off) s := rfl

theorem exec_wrTimer (off : BitVec 2) (d : WData) :
    exec (.wrTimer off d) s = busWrite d off[0] (writeTimer off) s := rfl

theorem exec_rdSwitch (size : Size) (off : BitVec 21) :
    exec (.rdSwitch size off) s = busRead size off[0] readSwitch s := rfl

theorem exec_wrSwitch (off : BitVec 21) (d : WData) :
    exec (.wrSwitch off d) s = busWrite d off[0] writeSwitch s := rfl

theorem exec_rdUnmapped (size : Size) (a : Addr) :
    exec (.rdUnmapped size a) s = unmappedCycle size a s := rfl

theorem exec_wrUnmapped (a : Addr) (d : WData) :
    exec (.wrUnmapped a d) s = unmappedCycle d.size a s := rfl

theorem exec_setlineSerInt (v : Bool) :
    exec (.setlineSerInt v) s = lineOp (fun t => t.setSerInt v) s := rfl

theorem exec_setlineTmrOut1 (v : Bool) :
    exec (.setlineTmrOut1 v) s = lineOp (fun t => t.setTmrOut1 v) s := rfl

theorem exec_setlineTmrOut2 (v : Bool) :
    exec (.setlineTmrOut2 v) s = lineOp (fun t => t.setTmrOut2 v) s := rfl

theorem exec_setlineTmrOut3 (v : Bool) :
    exec (.setlineTmrOut3 v) s = lineOp (fun t => t.setTmrOut3 v) s := rfl

theorem exec_setlineTmrOut4 (v : Bool) :
    exec (.setlineTmrOut4 v) s = lineOp (fun t => t.setTmrOut4 v) s := rfl

theorem exec_setlineTmrOut5 (v : Bool) :
    exec (.setlineTmrOut5 v) s = lineOp (fun t => t.setTmrOut5 v) s := rfl

end

/-- What the write handler of a writable storage window does in an aligned cycle: the bytes of the data are
stored at their offsets (20_memory.md R53). -/
theorem writeStore_byte (st : Store) (off : BitVec 21) (v : Byte) (s : State) :
    writeStore st (wordOffset off) (busWord (.byte v) off[0]) (lanes .byte off[0]) s =
      s.setCell st off.toNat v := by
  cases h : off[0]
  · simp [writeStore, busWord, storeWrite_even, wordOffset_even h]
  · simp [writeStore, busWord, storeWrite_odd, wordOffset_odd h]

theorem writeStore_word (st : Store) (off : BitVec 21) (v : BusWord) (s : State) (h : off[0] = false) :
    writeStore st (wordOffset off) (busWord (.word v) off[0]) (lanes .word off[0]) s =
      (s.setCell st off.toNat (upperByte v)).setCell st (off.toNat + 1) (lowerByte v) := by
  simp [writeStore, busWord, h, storeWrite_word, wordOffset_even h]

/-- CONSTRUCT's checks pass on this board's tables (44_board_wiring.md R217). -/
theorem tables_valid : (windowTableValid windowTable && wiringValid wiring) = true := by decide

/-- RESET and SETLINE are admitted in every phase but unbuilt (70_reset_and_hazards.md R276). -/
theorem admitsLine_iff (s : State) : s.admitsLine = true ↔ s.phase ≠ .unbuilt := by
  unfold State.admitsLine
  cases s.phase <;> simp

/-- What RESET does where it is admitted. -/
theorem exec_reset {s : State} (h : s.phase ≠ .unbuilt) :
    exec .reset s = .next ({ s.bootCopy.emit .cpuReset with phase := .running }.respond .done) := by
  simp only [exec, execReset, (admitsLine_iff s).2 h, if_true]

end Sys2Proof.Machine
end

