-- ==== Sys2Proof/Laws/Decoder.lean ====
section
/-! SUPPORT. The decoder's mask and match tests, and RESOLVE's search, as tests on numbers. -/

namespace Sys2Proof

open Machine

/-- A mask of the bits from `n` up, as two shifts. -/
theorem and_top (n : Nat) (m : Addr) (hm : ∀ i : Fin 24, m.getLsbD i.val = decide (n ≤ i.val))
    (x : Addr) :
    x &&& m = (x >>> n) <<< n := by
  apply BitVec.eq_of_getLsbD_eq
  intro i hi
  have := hm ⟨i, hi⟩
  simp only at this
  rw [BitVec.getLsbD_and, this, BitVec.getLsbD_shiftLeft, BitVec.getLsbD_ushiftRight]
  by_cases h : n ≤ i
  · have : n + (i - n) = i := by omega
    simp [hi, h, this, Nat.not_lt.2 h]
  · simp [h, Nat.lt_of_not_le h]

/-- A mask of the bits from `n` up keeps the multiple of `2 ^ n`. -/
theorem toNat_and_top (n : Nat) (m : Addr) (hm : ∀ i : Fin 24, m.getLsbD i.val = decide (n ≤ i.val))
    (x : Addr) :
    (x &&& m).toNat = x.toNat / 2 ^ n * 2 ^ n := by
  rw [and_top n m hm, BitVec.toNat_shiftLeft, BitVec.toNat_ushiftRight, Nat.shiftRight_eq_div_pow, Nat.shiftLeft_eq]
  apply Nat.mod_eq_of_lt
  exact Nat.lt_of_le_of_lt (Nat.div_mul_le_self _ _) x.isLt

/-- The masked address as a number (40_decode.md R111). -/
theorem mask24_toNat (addr : AddrIn) : (mask24 addr).toNat = addr.toNat % 0x1000000 :=
  BitVec.toNat_setWidth ..

/-- The sizes the decoder admits (30_encoding.md R81), with their numbers. -/
theorem decodeSize_eq (size : Nat) :
    decodeSize size = if size = 8 then some .byte else if size = 16 then some .word else none := by
  unfold decodeSize
  rw [accessSizes_eq]
  by_cases h8 : size = 8
  · subst h8; rfl
  · by_cases h16 : size = 16
    · subst h16; rfl
    · simp [h8, h16]

/-- The admitted size of a record at an address, with the numbers: a word needs an even address. -/
theorem admitSize_eq (size : Nat) (a : Addr) :
    admitSize size a =
      if size = 8 then .ok .byte
      else if size = 16 then (if a[0] = false then .ok .word else .error (.oddWord a))
      else .error (.badSize size) := by
  unfold admitSize
  rw [decodeSize_eq]
  by_cases h8 : size = 8
  · simp [h8, Size.aligned]
  · by_cases h16 : size = 16
    · simp [h16, Size.aligned]
    · simp [h8, h16]

/-- The addresses 20_memory.md R62 lists, with their numbers. -/
theorem isUnmappedAddr_iff (a : Addr) :
    isUnmappedAddr a = true ↔
      (0x202000 ≤ a.toNat ∧ a.toNat < 0x400000) ∨ (0x402000 ≤ a.toNat ∧ a.toNat < 0x600000) ∨
        (0x600000 ≤ a.toNat ∧ a.toNat ≤ 0x7FFFFF ∧ 8 ≤ (a.toNat - 0x600000) % 0x20000) := by
  simp only [isUnmappedAddr, Bool.or_eq_true, Bool.and_eq_true, decide_eq_true_eq, or_assoc, and_assoc]
  exact Iff.rfl

/-- The masks of 30_encoding.md R89. -/
theorem and_region (x : Addr) : (x &&& 0xE00000).toNat = x.toNat / 0x200000 * 0x200000 :=
  toNat_and_top 21 0xE00000 (by decide) x

theorem and_bank (x : Addr) : (x &&& 0xFFE000).toNat = x.toNat / 0x2000 * 0x2000 :=
  toNat_and_top 13 0xFFE000 (by decide) x

theorem and_serial (x : Addr) :
    (x &&& 0xE1FFF8).toNat = x.toNat / 0x200000 * 0x200000 + x.toNat % 0x20000 / 8 * 8 := by
  have e : x &&& 0xE1FFF8 = (x &&& 0xE00000) ||| (x &&& 0x1FFF8#24) := by
    rw [← BitVec.and_or_distrib_left]; rfl
  have e2 : x &&& 0x1FFF8#24 = (x &&& 0xFFFFF8#24) &&& 0x1FFFF#24 := by rw [BitVec.and_assoc]; rfl
  have d : (x &&& 0xE00000) &&& (x &&& 0x1FFF8#24) = 0#24 := by
    have : (x &&& 0xE00000) &&& (x &&& 0x1FFF8#24) = (x &&& x) &&& ((0xE00000 : Addr) &&& 0x1FFF8#24) := by ac_rfl
    rw [this]
    have : ((0xE00000 : Addr) &&& 0x1FFF8#24) = 0#24 := by decide
    rw [this, BitVec.and_zero]
  rw [e, ← BitVec.add_eq_or_of_and_eq_zero _ _ d, BitVec.toNat_add, and_region, e2, BitVec.toNat_and,
    toNat_and_top 3 _ (by decide)]
  have := addr_lt x
  simp only [addrWidth]
  rw [show (0x1FFFF#24).toNat = 2^17 - 1 from rfl, Nat.and_two_pow_sub_one_eq_mod]
  omega

theorem hits_iff (m p : Addr) (w : Option WindowName) (a : Addr) :
    BusRow.hits ⟨m, p, w⟩ a = true ↔ (a &&& m).toNat = p.toNat := by
  simp [BusRow.hits, ← BitVec.toNat_inj]

/-- One row of the search. -/
theorem find_row {m p : Addr} {w : Option WindowName} {rest : List BusRow} {a : Addr} {c : Prop} [Decidable c]
    (n : Nat) (h : p.toNat = n ∧ ((a &&& m).toNat = n ↔ c)) :
    ((⟨m, p, w⟩ :: rest : List BusRow).find? (fun row => row.hits a)).bind (·.window) =
      if c then w else (rest.find? (fun row => row.hits a)).bind (·.window) := by
  by_cases hc : c
  · simp [List.find?, (hits_iff m p w a).2 ((h.2.2 hc).trans h.1.symm), hc]
  · have : BusRow.hits ⟨m, p, w⟩ a = false := by
      rw [← Bool.not_eq_true, hits_iff, h.1]
      exact mt h.2.1 hc
    simp [List.find?, this, hc]

/-- The window of the mask and match rows (30_encoding.md R89), by the address as a number. -/
theorem decodeWindow_eq (a : Addr) :
    decodeWindow a =
      if a.toNat / 0x200000 = 0 then some .ram
      else if a.toNat / 0x2000 = 0x100 then some .rom0
      else if a.toNat / 0x2000 = 0x200 then some .rom1
      else if a.toNat / 0x200000 = 3 ∧ a.toNat % 0x20000 / 8 = 0 then some .serial
      else if a.toNat / 0x200000 = 4 then some .timer
      else if a.toNat / 0x200000 = 5 then some .pagemap
      else if a.toNat / 0x200000 = 6 then some .segmap
      else if a.toNat / 0x200000 = 7 then some .switch
      else none := by
  unfold decodeWindow
  rw [busRows_eq, find_row (c := a.toNat / 0x200000 = 0) 0, find_row (c := a.toNat / 0x2000 = 0x100) 0x200000,
    find_row (c := a.toNat / 0x2000 = 0x200) 0x400000,
    find_row (c := a.toNat / 0x200000 = 3 ∧ a.toNat % 0x20000 / 8 = 0) 0x600000,
    find_row (c := a.toNat / 0x200000 = 4) 0x800000, find_row (c := a.toNat / 0x200000 = 5) 0xA00000,
    find_row (c := a.toNat / 0x200000 = 6) 0xC00000, find_row (c := a.toNat / 0x200000 = 7) 0xE00000]
  · simp [List.find?, BusRow.hits]
  all_goals
    refine ⟨rfl, ?_⟩
    first | rw [and_region] | rw [and_bank] | rw [and_serial]
    omega
end Sys2Proof

namespace Sys2Proof.Machine

/-- `Matches(W, a)` as a proposition (40_decode.md R113). -/
theorem windowMatches_iff (w : Window) (a : Nat) :
    windowMatches w a = true ↔ w.base ≤ a ∧ a ≤ w.last ∧ (a - w.base) % w.period < w.size := by
  simp [windowMatches, and_assoc]

/-- One window of the search (40_decode.md R110). -/
theorem resolveIn_cons {w : Window} {rest : List Window} {a off : Nat} {c : Prop} [Decidable c]
    (h : (w.base ≤ a ∧ a ≤ w.last ∧ (a - w.base) % w.period < w.size ↔ c) ∧
      (c → (a - w.base) % w.period = off)) :
    resolveIn (w :: rest) a = if c then some (w, off) else resolveIn rest a := by
  unfold resolveIn
  by_cases hc : c
  · simp [List.find?, (windowMatches_iff w a).2 (h.1.2 hc), hc, windowOffset, h.2 hc]
  · have : windowMatches w a = false := by
      rw [← Bool.not_eq_true, windowMatches_iff]
      exact mt h.1.1 hc
    simp [List.find?, this, hc]

/-- RESOLVE's search of the window table (40_decode.md R110), by the address as a number. -/
theorem resolveAddr_eq (a : Addr) :
    resolveAddr a =
      if a.toNat / 0x200000 = 0 then some (ramWindow, a.toNat % 0x200000)
      else if a.toNat / 0x2000 = 0x100 then some (rom0Window, a.toNat % 0x2000)
      else if a.toNat / 0x2000 = 0x200 then some (rom1Window, a.toNat % 0x2000)
      else if a.toNat / 0x200000 = 3 ∧ a.toNat % 0x20000 / 8 = 0 then some (serialWindow, a.toNat % 8)
      else if a.toNat / 0x200000 = 4 then some (timerWindow, a.toNat % 4)
      else if a.toNat / 0x200000 = 5 then some (pagemapWindow, a.toNat % 0x200000)
      else if a.toNat / 0x200000 = 6 then some (segmapWindow, a.toNat % 0x200000)
      else if a.toNat / 0x200000 = 7 then some (switchWindow, a.toNat % 0x200000)
      else none := by
  have ha := addr_lt a
  unfold resolveAddr
  rw [windowTable_eq,
    resolveIn_cons (c := a.toNat / 0x200000 = 0) (off := a.toNat % 0x200000),
    resolveIn_cons (c := a.toNat / 0x2000 = 0x100) (off := a.toNat % 0x2000),
    resolveIn_cons (c := a.toNat / 0x2000 = 0x200) (off := a.toNat % 0x2000),
    resolveIn_cons (c := a.toNat / 0x200000 = 3 ∧ a.toNat % 0x20000 / 8 = 0) (off := a.toNat % 8),
    resolveIn_cons (c := a.toNat / 0x200000 = 4) (off := a.toNat % 4),
    resolveIn_cons (c := a.toNat / 0x200000 = 5) (off := a.toNat % 0x200000),
    resolveIn_cons (c := a.toNat / 0x200000 = 6) (off := a.toNat % 0x200000),
    resolveIn_cons (c := a.toNat / 0x200000 = 7) (off := a.toNat % 0x200000)]
  · rfl
  all_goals
    simp only
    omega
end Sys2Proof.Machine
end

