-- ==== Sys2Proof/Laws/PerInstr.lean ====
section
/-! SUPPORT. A statement made instruction by instruction: the record that the encoder writes for a well-formed
operation is no refused form (30_encoding.md R93, 60_exceptions.md R246) in a phase that admits the operation. -/

namespace Sys2Proof.Laws

open Machine

/-- Bit 0 of an encoded address is bit 0 of the offset, since every base is even. -/
theorem encodeAddr_odd {n : Nat} {base : Nat} (hb : base % 2 = 0) (off : BitVec (n + 1)) :
    (mask24 (encodeAddr base off)).toNat % 2 = 1 ↔ off[0] = true := by
  have h : (mask24 (encodeAddr base off))[0] = off[0] := by
    simp [mask24, encodeAddr, BitVec.getElem_eq_testBit_toNat, hb]
  rw [← h, BitVec.getElem_eq_testBit_toNat, Nat.testBit_zero, decide_eq_true_eq]

/-- An aligned cycle at an even base is no refused form while the board is running. -/
theorem bus_admitted {n : Nat} {base : Nat} (hb : base % 2 = 0) {off : BitVec (n + 1)} {size : Size}
    (ha : size.aligned off[0] = true) (rw : Rw) (data : BusWord) :
    ¬ (Request.bus rw size.bits (encodeAddr base off) data).refusedForm .running := by
  rw [Request.refusedForm, encodeAddr_odd hb]
  cases size
  · simp [Size.bits]
  · simpa [Size.bits, Size.aligned] using ha

/-- The statement of the family. -/
def EncodingAdmitted.Statement (i : Instr) : Prop :=
  i.wf = true → ∀ p, i.admittedIn p = true → ¬ (encode i).refusedForm p

/-- Of a bus cycle: it is admitted in the phase running only. -/
theorem of_bus {i : Instr} {n : Nat} {base : Nat} {off : BitVec (n + 1)} {size : Size} {rw : Rw}
    {data : BusWord} (hb : base % 2 = 0) (he : encode i = .bus rw size.bits (encodeAddr base off) data)
    (hw : i.wf = true → size.aligned off[0] = true)
    (ha : ∀ p, i.admittedIn p = true → p = .running) : EncodingAdmitted.Statement i := by
  intro h p hp
  rw [ha p hp, he]
  exact bus_admitted hb (hw h) rw data

/-- Of a SETLINE: its code names a source. -/
theorem of_line {i : Instr} {src : BitVec 3} {v : Bool} (he : encode i = .line src v) (hs : src.toNat < 6)
    (ha : ∀ p, i.admittedIn p = true → p ≠ .unbuilt) : EncodingAdmitted.Statement i := by
  intro _ p hp
  rw [he]
  rintro (h | h)
  · exact ha p hp h
  · omega

theorem EncodingAdmitted.rdRam (size : Size) (off : BitVec 21) : EncodingAdmitted.Statement (.rdRam size off) :=
  of_bus (base := ramBase) (by decide) rfl id (by simp [Instr.admittedIn])
theorem EncodingAdmitted.wrRam (off : BitVec 21) (d : WData) : EncodingAdmitted.Statement (.wrRam off d) :=
  of_bus (base := ramBase) (by decide) rfl id (by simp [Instr.admittedIn])
theorem EncodingAdmitted.rdRom0 (size : Size) (off : BitVec 13) : EncodingAdmitted.Statement (.rdRom0 size off) :=
  of_bus (base := rom0Base) (by decide) rfl id (by simp [Instr.admittedIn])
theorem EncodingAdmitted.wrRom0 (off : BitVec 13) (d : WData) : EncodingAdmitted.Statement (.wrRom0 off d) :=
  of_bus (base := rom0Base) (by decide) rfl id (by simp [Instr.admittedIn])
theorem EncodingAdmitted.rdRom1 (size : Size) (off : BitVec 13) : EncodingAdmitted.Statement (.rdRom1 size off) :=
  of_bus (base := rom1Base) (by decide) rfl id (by simp [Instr.admittedIn])
theorem EncodingAdmitted.wrRom1 (off : BitVec 13) (d : WData) : EncodingAdmitted.Statement (.wrRom1 off d) :=
  of_bus (base := rom1Base) (by decide) rfl id (by simp [Instr.admittedIn])
theorem EncodingAdmitted.rdSerial (size : Size) (off : BitVec 3) : EncodingAdmitted.Statement (.rdSerial size off) :=
  of_bus (base := serialBase) (by decide) rfl id (by simp [Instr.admittedIn])
theorem EncodingAdmitted.wrSerial (off : BitVec 3) (d : WData) : EncodingAdmitted.Statement (.wrSerial off d) :=
  of_bus (base := serialBase) (by decide) rfl id (by simp [Instr.admittedIn])
theorem EncodingAdmitted.rdTimer (size : Size) (off : BitVec 2) : EncodingAdmitted.Statement (.rdTimer size off) :=
  of_bus (base := timerBase) (by decide) rfl id (by simp [Instr.admittedIn])
theorem EncodingAdmitted.wrTimer (off : BitVec 2) (d : WData) : EncodingAdmitted.Statement (.wrTimer off d) :=
  of_bus (base := timerBase) (by decide) rfl id (by simp [Instr.admittedIn])
theorem EncodingAdmitted.rdPagemap (size : Size) (off : BitVec 21) :
    EncodingAdmitted.Statement (.rdPagemap size off) :=
  of_bus (base := pagemapBase) (by decide) rfl id (by simp [Instr.admittedIn])
theorem EncodingAdmitted.wrPagemap (off : BitVec 21) (d : WData) : EncodingAdmitted.Statement (.wrPagemap off d) :=
  of_bus (base := pagemapBase) (by decide) rfl id (by simp [Instr.admittedIn])
theorem EncodingAdmitted.rdSegmap (size : Size) (off : BitVec 21) :
    EncodingAdmitted.Statement (.rdSegmap size off) :=
  of_bus (base := segmapBase) (by decide) rfl id (by simp [Instr.admittedIn])
theorem EncodingAdmitted.wrSegmap (off : BitVec 21) (d : WData) : EncodingAdmitted.Statement (.wrSegmap off d) :=
  of_bus (base := segmapBase) (by decide) rfl id (by simp [Instr.admittedIn])
theorem EncodingAdmitted.rdSwitch (size : Size) (off : BitVec 21) :
    EncodingAdmitted.Statement (.rdSwitch size off) :=
  of_bus (base := switchBase) (by decide) rfl id (by simp [Instr.admittedIn])
theorem EncodingAdmitted.wrSwitch (off : BitVec 21) (d : WData) : EncodingAdmitted.Statement (.wrSwitch off d) :=
  of_bus (base := switchBase) (by decide) rfl id (by simp [Instr.admittedIn])
theorem EncodingAdmitted.rdUnmapped (size : Size) (a : Addr) : EncodingAdmitted.Statement (.rdUnmapped size a) :=
  of_bus (base := 0) (by decide) rfl (fun h => (Bool.and_eq_true_iff.1 h).1) (by simp [Instr.admittedIn])
theorem EncodingAdmitted.wrUnmapped (a : Addr) (d : WData) : EncodingAdmitted.Statement (.wrUnmapped a d) :=
  of_bus (base := 0) (by decide) rfl (fun h => (Bool.and_eq_true_iff.1 h).1) (by simp [Instr.admittedIn])
theorem EncodingAdmitted.setlineSerInt (v : Bool) : EncodingAdmitted.Statement (.setlineSerInt v) :=
  of_line rfl (by decide) (by simp [Instr.admittedIn])
theorem EncodingAdmitted.setlineTmrOut1 (v : Bool) : EncodingAdmitted.Statement (.setlineTmrOut1 v) :=
  of_line rfl (by decide) (by simp [Instr.admittedIn])
theorem EncodingAdmitted.setlineTmrOut2 (v : Bool) : EncodingAdmitted.Statement (.setlineTmrOut2 v) :=
  of_line rfl (by decide) (by simp [Instr.admittedIn])
theorem EncodingAdmitted.setlineTmrOut3 (v : Bool) : EncodingAdmitted.Statement (.setlineTmrOut3 v) :=
  of_line rfl (by decide) (by simp [Instr.admittedIn])
theorem EncodingAdmitted.setlineTmrOut4 (v : Bool) : EncodingAdmitted.Statement (.setlineTmrOut4 v) :=
  of_line rfl (by decide) (by simp [Instr.admittedIn])
theorem EncodingAdmitted.setlineTmrOut5 (v : Bool) : EncodingAdmitted.Statement (.setlineTmrOut5 v) :=
  of_line rfl (by decide) (by simp [Instr.admittedIn])
theorem EncodingAdmitted.reset : EncodingAdmitted.Statement .reset := by
  intro _ p hp h
  have h : p = .unbuilt := h
  subst h
  exact absurd hp (by decide)
theorem EncodingAdmitted.construct (rom0 rom1 : List Byte) : EncodingAdmitted.Statement (.construct rom0 rom1) := by
  intro hw p hp
  simp only [Instr.wf, imagesAdmitted, Bool.or_eq_true, decide_eq_true_eq, Bool.and_eq_true, beq_iff_eq] at hw
  simp only [Instr.admittedIn, beq_iff_eq] at hp
  simp only [encode, Request.refusedForm]
  rintro (h | ⟨h8, h⟩)
  · exact h hp
  · exact hw.elim (fun hs => absurd h8 (Nat.not_le_of_lt hs)) h
theorem EncodingAdmitted.resolve (addr : AddrIn) (size : Size) : EncodingAdmitted.Statement (.resolve addr size) := by
  intro hw p _
  have h : (mask24 addr)[0] = addr[0] := by simp [mask24]
  rw [BitVec.getElem_eq_testBit_toNat, Nat.testBit_zero] at h
  simp only [encode, Request.refusedForm]
  cases size
  · simp [Size.bits]
  · simp only [Instr.wf, Size.aligned, Bool.not_eq_true', ← h, decide_eq_false_iff_not] at hw
    simpa [Size.bits] using hw

end Sys2Proof.Laws
end

