-- ==== Sys2Proof/Tests/Slice0.lean ====
section
/-! SUPPORT. Tests: ill-formed operations are refused, words written out from the spec decode, single operations
give the results of 95_test_vectors.md, and the hypotheses of the statements can be met. Each comment names the
source of the expected values. -/

namespace Sys2Proof.Tests

open Machine

/-! ## Well-formedness: one ill-formed operation for each check, and the nearest well-formed one -/

theorem test_wf_ram : (Instr.rdRam .word 1).wf = false ∧ (Instr.rdRam .byte 1).wf = true ∧
    (Instr.wrRam 1 (.word 0)).wf = false ∧ (Instr.wrRam 1 (.byte 0)).wf = true := by decide
theorem test_wf_rom0 : (Instr.rdRom0 .word 0x1FFF).wf = false ∧ (Instr.wrRom0 3 (.word 0)).wf = false ∧
    (Instr.rdRom0 .word 0x1FFE).wf = true := by decide
theorem test_wf_rom1 : (Instr.rdRom1 .word 0x1FFF).wf = false ∧ (Instr.wrRom1 3 (.word 0)).wf = false ∧
    (Instr.wrRom1 3 (.byte 0)).wf = true := by decide
theorem test_wf_serial : (Instr.rdSerial .word 7).wf = false ∧ (Instr.wrSerial 1 (.word 0)).wf = false ∧
    (Instr.rdSerial .byte 7).wf = true := by decide
theorem test_wf_timer : (Instr.rdTimer .word 3).wf = false ∧ (Instr.wrTimer 1 (.word 0)).wf = false ∧
    (Instr.wrTimer 2 (.word 0)).wf = true := by decide
theorem test_wf_stubs : (Instr.rdPagemap .word 1).wf = false ∧ (Instr.wrPagemap 1 (.word 0)).wf = false ∧
    (Instr.rdSegmap .word 1).wf = false ∧ (Instr.wrSegmap 1 (.word 0)).wf = false := by decide
theorem test_wf_switch : (Instr.rdSwitch .word 1).wf = false ∧ (Instr.wrSwitch 1 (.word 0)).wf = false := by
  decide
theorem test_wf_unmapped : (Instr.rdUnmapped .byte 0x201FFF).wf = false ∧
    (Instr.rdUnmapped .byte 0x202000).wf = true ∧ (Instr.wrUnmapped 0x600007 (.byte 0)).wf = false ∧
    (Instr.wrUnmapped 0x600008 (.byte 0)).wf = true ∧ (Instr.rdUnmapped .word 0x202001).wf = false := by decide
theorem test_wf_resolve : (Instr.resolve 1 .word).wf = false ∧ (Instr.resolve 1 .byte).wf = true := by decide

/-- V6: a bank 0 of 8 bytes is not 0x2000 and not short. -/
theorem test_wf_construct : (Instr.construct (List.replicate 8 0) []).wf = false ∧
    (Instr.construct (List.replicate 7 0) []).wf = true := by decide

/-! ## Decoding: words and records written out from 30_encoding.md R82, R86, R89 -/

/-- `00000...0`: region 0, offset 0x1FFFFF in bits 20:0. -/
theorem test_decode_rdRam : decodeTableWord 24 0b000111111111111111111111 = some (.rdRam .byte 0x1FFFFF) := by
  decide
theorem test_decode_wrRam : decode (.bus .write 16 0x00001000 0x1234) = .ok (.wrRam 0x1000 (.word 0x1234)) := by
  decide
/-- `001 00000000` in bits 23:13, offset 0x1FFF in bits 12:0. -/
theorem test_decode_rdRom0 : decodeTableWord 24 0b001000000001111111111111 = some (.rdRom0 .byte 0x1FFF) := by
  decide
theorem test_decode_wrRom0 : decode (.bus .write 8 0x00200001 0xAB7F) = .ok (.wrRom0 1 (.byte 0x7F)) := by decide
/-- `010 00000000` in bits 23:13, offset 0x1FFE. -/
theorem test_decode_rdRom1 : decode (.bus .read 16 0b010000000001111111111110 0) = .ok (.rdRom1 .word 0x1FFE) := by
  decide
theorem test_decode_wrRom1 : decode (.bus .write 8 0x00400001 0) = .ok (.wrRom1 1 (.byte 0)) := by decide
/-- `011` in bits 23:21, image 15 in bits 20:17, zeros in bits 16:3, offset 6 in bits 2:0. -/
theorem test_decode_rdSerial : decodeTableWord 24 0b011111100000000000000110 = some (.rdSerial .byte 6) := by
  decide
theorem test_decode_wrSerial : decode (.bus .write 16 0x006A0002 0x1299) = .ok (.wrSerial 2 (.word 0x1299)) := by
  decide
/-- `100` in bits 23:21, the image in bits 20:2, offset 2 in bits 1:0. -/
theorem test_decode_rdTimer : decodeTableWord 24 0b100111111111111111111110 = some (.rdTimer .byte 2) := by decide
theorem test_decode_wrTimer : decode (.bus .write 16 0x00812346 0x1234) = .ok (.wrTimer 2 (.word 0x1234)) := by
  decide
theorem test_decode_rdPagemap : decodeTableWord 24 0b101000000000000000010000 = some (.rdPagemap .byte 0x10) := by
  decide
theorem test_decode_wrPagemap : decode (.bus .write 16 0x00A00010 0x0123) = .ok (.wrPagemap 0x10 (.word 0x0123)) := by
  decide
theorem test_decode_rdSegmap : decodeTableWord 24 0b110111111111111111111111 = some (.rdSegmap .byte 0x1FFFFF) := by
  decide
theorem test_decode_wrSegmap : decode (.bus .write 16 0x00C00010 0x4567) = .ok (.wrSegmap 0x10 (.word 0x4567)) := by
  decide
theorem test_decode_rdSwitch : decode (.bus .read 16 0xFFE00000 0) = .ok (.rdSwitch .word 0) := by decide
theorem test_decode_wrSwitch : decode (.bus .write 16 0x00FFFFFE 0) = .ok (.wrSwitch 0x1FFFFE (.word 0)) := by decide
/-- V1, V2: the gap after image 0 of the serial chip, and 0x12345678. -/
theorem test_decode_rdUnmapped : decodeTableWord 24 0x600008 = some (.rdUnmapped .byte 0x600008) ∧
    decode (.bus .read 16 0x12345678 0) = .ok (.rdUnmapped .word 0x345678) := by decide
theorem test_decode_wrUnmapped : decode (.bus .write 8 0x00500000 1) = .ok (.wrUnmapped 0x500000 (.byte 1)) := by
  decide
theorem test_decode_setline : decodeTableWord 8 0b1000 = some (.setlineSerInt true) ∧
    decodeTableWord 8 0b0001 = some (.setlineTmrOut1 false) ∧
    decodeTableWord 8 0b1010 = some (.setlineTmrOut2 true) ∧
    decodeTableWord 8 0b0011 = some (.setlineTmrOut3 false) ∧
    decodeTableWord 8 0b1100 = some (.setlineTmrOut4 true) ∧
    decodeTableWord 8 0b0101 = some (.setlineTmrOut5 false) := by decide
/-- R86: codes 6 and 7 name no source. -/
theorem test_decode_no_source : decode (.line 6 true) = .error (.noSuchLine 6) ∧
    decode (.line 7 true) = .error (.noSuchLine 7) := by decide
theorem test_decode_sys : decodeTableWord 0 0 = some .reset ∧ decode .reset = .ok .reset ∧
    decode (.construct [1] [2]) = .ok (.construct [1] [2]) := by decide
theorem test_decode_resolve : decode (.query 0xFF600002 8) = .ok (.resolve 0xFF600002 .byte) := by decide
/-- R93 and V1's refusals: an odd word, a size of 32. -/
theorem test_decode_refuses : decode (.query 1 16) = .error (.oddWord 1) ∧
    decode (.query 0 32) = .error (.badSize 32) ∧ decode (.bus .read 16 1 0) = .error (.oddWord 1) := by decide

/-! ## Single operations: 95_test_vectors.md -/

/-- A small running state: the first bytes of bank 0 as in V4, two answers of each chip. -/
def small : State :=
  { State.powerOn with
    phase := .running
    rom0 := [0x00, 0x00, 0x10, 0x00, 0x00, 0x20, 0x00, 0x08]
    rom1 := [0x4E, 0x75]
    serialAnswers := [⟨0x52, []⟩, ⟨0x00, [true]⟩]
    timerAnswers := [⟨0xA0B1, []⟩, ⟨0x0000, [(.out2, true)]⟩] }

/-- The state after a record, or the same state where it is refused. -/
def after (r : Request) (s : State) : State :=
  match perform r s with
  | .next t => t
  | .fault _ => s
  | .refused _ => s

/-- The answer to a record, where it is not refused. -/
def answer (r : Request) (s : State) : Option Response :=
  match perform r s with
  | .next t => some t.resp
  | .fault _ => none
  | .refused _ => none

/-- The seven steps of V3 on RAM: mixed widths. -/
theorem test_ram_mixed_widths :
    let s1 := after (.bus .write 16 0x100 0x1234) small
    let s2 := after (.bus .write 8 0x100 0xAB) s1
    let s3 := after (.bus .write 8 0x101 0xCD) s2
    answer (.bus .read 8 0x100 0) s1 = some (.byte 0x12) ∧ answer (.bus .read 8 0x101 0) s1 = some (.byte 0x34) ∧
    answer (.bus .read 16 0x100 0) s2 = some (.word 0xAB34) ∧
    answer (.bus .read 16 0x100 0) s3 = some (.word 0xABCD) := by decide

/-- V4: the highest RAM word. -/
theorem test_ram_top :
    answer (.bus .read 8 0x1FFFFF 0) (after (.bus .write 16 0x1FFFFE 0xA55A) small) = some (.byte 0x5A) := by decide

/-- P2 steps 11 to 13. -/
theorem test_stubs_hold_data :
    let s := after (.bus .write 16 0xC00010 0x4567) (after (.bus .write 16 0xA00010 0x0123) small)
    answer (.bus .read 16 0xA00010 0) s = some (.word 0x0123) ∧
    answer (.bus .read 16 0xC00010 0) s = some (.word 0x4567) := by decide

/-- V4: RD16 0x200002 before and after a write; RD8 of bank 1. -/
theorem test_rom :
    answer (.bus .read 16 0x200002 0) small = some (.word 0x1000) ∧
    answer (.bus .read 16 0x200002 0) (after (.bus .write 16 0x200002 0) small) = some (.word 0x1000) ∧
    answer (.bus .read 8 0x400001 0) (after (.bus .write 8 0x400001 0) small) = some (.byte 0x75) := by decide

/-- V4: the switch register. -/
theorem test_switch :
    answer (.bus .read 16 0xF12344 0) small = some (.word 0x7C00) ∧
    answer (.bus .read 8 0xFFFFFE 0) small = some (.byte 0x7C) ∧
    answer (.bus .read 8 0xFFFFFF 0) small = some (.byte 0x00) ∧
    answer (.bus .read 16 0xE00000 0) (after (.bus .write 16 0xE00000 0xFFFF) small) = some (.word 0x7C00) := by
  decide

/-- V4: unmapped cycles, with the masked address. -/
theorem test_unmapped :
    answer (.bus .read 16 0xFF202000 0) small = some (.error (.unmappedAccess 0x202000)) ∧
    answer (.bus .write 8 0x500000 1) small = some (.error (.unmappedAccess 0x500000)) ∧
    answer (.bus .write 16 0x61FFFE 0) small = some (.error (.unmappedAccess 0x61FFFE)) := by decide

/-- V4: RD8 0x600004 is `Read(2)`, 0x52 of the double; RD8 0x600007 makes no call. -/
theorem test_serial_read_byte : answer (.bus .read 8 0x600004 0) small = some (.byte 0x52) :=
  congrArg (fun b => some (Response.byte b)) (upperByte_append 0x52 _)
theorem test_serial_read_calls :
    (after (.bus .read 8 0x600004 0) small).calls = [.serialRead 2] ∧
    (after (.bus .read 8 0x600007 0) small).calls = [] ∧
    (after (.bus .read 16 0x600004 0) small).calls = [.serialRead 2] := by decide

/-- V4: WR16 0x600002, 0x1299 is `Write(1, 0x12)`; the lower lane goes nowhere. -/
theorem test_serial_write :
    (after (.bus .write 16 0x600002 0x1299) small).calls = [.serialWrite 1 0x12] ∧
    (after (.bus .write 8 0x600002 0x99) small).calls = [.serialWrite 1 0x99] ∧
    (after (.bus .write 8 0x600003 0x99) small).calls = [] := by decide

/-- P3 step 5: a write during which the chip asserts its interrupt. -/
theorem test_serial_interrupt :
    let t := after (.bus .write 16 0x7E0006 0x01FF) (after (.bus .read 8 0x600004 0) small)
    t.serint = true ∧ t.irq5 = true ∧ t.out = [.cpuIrq 5 true] ∧
    t.calls = [.serialRead 2, .serialWrite 3 0x01] := by decide

/-- V4: the double answers 0xA0B1 at register 1 whatever the lanes. -/
theorem test_timer_read :
    answer (.bus .read 16 0x800006 0) small = some (.word 0xA0B1) ∧
    answer (.bus .read 8 0x800003 0) small = some (.byte 0xB1) ∧
    (after (.bus .read 8 0x800003 0) small).calls = [.timerRead 1 0x00FF] ∧
    (after (.bus .read 16 0x9FFFFC 0) small).calls = [.timerRead 0 0xFFFF] := by decide

/-- V4: the lane of a byte write. -/
theorem test_timer_write :
    (after (.bus .write 16 0x812346 0x1234) small).calls = [.timerWrite 1 0x1234 0xFFFF] ∧
    (after (.bus .write 8 0x800001 0x7F) small).calls = [.timerWrite 0 0x007F 0x00FF] ∧
    (after (.bus .write 8 0x800002 0x7F) small).calls = [.timerWrite 1 0x7F00 0xFF00] := by decide

/-- P5 step 5: a write during which the chip asserts output 2. -/
theorem test_timer_interrupt :
    let t := after (.bus .write 16 0x9FFFFE 0x0001) (after (.bus .read 16 0x800004 0) small)
    t.tout2 = true ∧ t.irq6 = true ∧ t.irq5 = false ∧ t.irq7 = false ∧ t.out = [.cpuIrq 6 true] := by decide

/-- P4 steps 1 to 4, from all lines deasserted. -/
theorem test_setline_levels :
    let s1 := after (.line 3 true) (after (.line 2 true) small)
    s1.irq6 = true ∧ s1.irq7 = true ∧ s1.irq5 = false ∧ s1.out = [.cpuIrq 6 true, .cpuIrq 7 true] ∧
    (after (.line 2 true) s1).out = s1.out ∧ (after (.line 1 true) s1).out = s1.out := by decide

/-- V5: SETLINE SER_INT, and TMR_OUT2 back to the level it had. -/
theorem test_setline_serint :
    (after (.line 0 true) small).irq5 = true ∧ (after (.line 0 true) small).out = [.cpuIrq 5 true] ∧
    (after (.line 2 false) small).out = [] := by decide

/-- P4 step 7: the clock edge, then the interrupt that it caused. -/
theorem test_clock_before_interrupt :
    let t := after (.line 4 true) { small with serialAnswers := [⟨0, [true]⟩] }
    t.out = [.serialClk .A true, .cpuIrq 5 true] ∧ t.tout4 = true ∧ t.irq5 = true ∧
    t.calls = [.serialClk .A true] := by decide

/-- P4 step 8. -/
theorem test_clock_channel_b :
    let t := after (.line 5 true) small
    t.out = [.serialClk .B true] ∧ t.tout5 = true ∧ t.irq5 = false := by decide

/-- V6 and P5 step 8: a RESET keeps the lines and restores the vector. -/
theorem test_reset :
    let t := after .reset (after (.bus .write 16 0 0xFFFF) (after (.line 2 true) small))
    answer (.bus .read 16 0 0) t = some (.word 0x0000) ∧ answer (.bus .read 8 5 0) t = some (.byte 0x20) ∧
    answer (.bus .read 8 7 0) t = some (.byte 0x08) ∧ t.irq6 = true ∧
    t.out = [.cpuIrq 6 true, .cpuReset] := by decide

/-- P1 steps 3 and 4: RD32 of the vector after RESET. -/
theorem test_rd32 :
    rd32Result (rd32 0 (after .reset small)) = some 0x00001000 ∧
    rd32Result (rd32 4 (after .reset small)) = some 0x00200008 := by decide

/-- V6: short and wrong images. -/
theorem test_construct_lengths :
    answer (.construct [] []) .powerOn = some (.error .malformedRomImage) ∧
    answer (.construct (List.replicate 7 0) []) .powerOn = some (.error .malformedRomImage) ∧
    answer (.construct (List.replicate 8 0) []) .powerOn = none ∧
    (after (.construct [] []) .powerOn).phase = .unbuilt := by decide

/-- V6: the phases. -/
theorem test_phases :
    answer .reset .powerOn = none ∧ answer (.line 0 true) .powerOn = none ∧
    answer (.line 0 true) { small with phase := .built } = some .done ∧
    answer (.bus .read 16 0 0) { small with phase := .built } = none ∧
    answer (.construct [] []) { small with phase := .built } = none := by decide

/-- V1: RESOLVE, in any phase. -/
theorem test_resolve :
    answer (.query 0x620000 8) .powerOn = some (.resolved .serial 0) ∧
    answer (.query 0x9FFFFF 8) .powerOn = some (.resolved .timer 3) ∧
    answer (.query 0xFFFFFFFF 8) small = some (.resolved .switch 0x1FFFFF) ∧
    answer (.query 0x7E0008 8) small = some (.error (.unmappedAccess 0x7E0008)) := by decide

/-- The board's own tables pass CONSTRUCT's checks; overlapping windows and a doubly driven level do not
(40_decode.md R121, 44_board_wiring.md R217). -/
theorem test_table_checks :
    windowTableValid windowTable = true ∧ wiringValid wiring = true ∧
    windowTableValid [timerWindow, { timerWindow with base := 0x9FFFFC }] = false ∧
    windowTableValid [{ timerWindow with size := 0 }] = false ∧
    wiringValid ({ src := .tmrOut1, dest := .irq 5 } :: wiring) = false ∧ wiringValid wiring.tail = false := by decide

/-- A word of the opcode table, stored where the step takes its next operation, is run by the very next step. -/
theorem test_withFetchWord :
    step (small.withFetchWord 24 0xE00000) = .next (small.respond (.byte 0x7C)) ∧
    step (small.withFetchWord 8 0b1011) = exec (.setlineTmrOut3 true) small := ⟨rfl, rfl⟩

/-! ## The hypotheses of the statements can be met -/

/-- A running board with two whole banks of zeros, its trace and calls as CONSTRUCT and RESET leave them. -/
def board : State :=
  { State.powerOn with
    phase := .running
    rom0 := List.replicate 0x2000 0
    rom1 := List.replicate 0x2000 0
    out := pinEvents ++ [.cpuReset]
    calls := pinCalls }

theorem board_inv : board.Inv where
  ramForm := empty_wf _
  pagemapForm := empty_wf _
  segmapForm := empty_wf _
  banks := fun _ => ⟨List.length_replicate .., List.length_replicate ..⟩
  irq5Source := rfl
  irq6Source := rfl
  irq7Source := rfl
  irq5Trace := rfl
  irq6Trace := rfl
  irq7Trace := rfl
  clkATrace := rfl
  clkBTrace := rfl
  edges := fun _ => rfl
  legal := by
    show ∀ e ∈ pinEvents ++ [.cpuReset], _
    decide
  delivered := rfl
  unbuiltTrace := nofun
  builtTrace := nofun
  runningTrace := by
    show _ → OutEvent.cpuReset ∈ pinEvents ++ [.cpuReset]
    decide

/-- A well-formed operation at a boundary of each family's operands. -/
theorem test_witness_decodeOfEncode : (Instr.rdRam .word 0x1FFFFE).wf = true ∧
    (Instr.wrSerial 7 (.byte 0)).wf = true ∧ (Instr.wrUnmapped 0x7FFFFF (.byte 0)).wf = true ∧
    (Instr.setlineTmrOut5 true).wf = true ∧ (Instr.construct [] []).wf = true := by decide

theorem test_witness_decodedOperations :
    decode (.bus .read 8 0x7FFFFF 0) = .ok (.rdUnmapped .byte 0x7FFFFF) ∧
    ∀ r0 r1, Instr.rdUnmapped .byte 0x7FFFFF ≠ .construct r0 r1 := ⟨by decide, nofun⟩

theorem test_witness_noTwoWindows : windowTable.reverse.Perm windowTable := List.reverse_perm _

theorem test_witness_busRows :
    busRows[7]? = some ⟨0xE00000, 0xE00000, some .switch⟩ ∧ windowTable[7]? = some switchWindow ∧
    busRows[0]? = some ⟨0xE00000, 0x000000, some .ram⟩ ∧ windowTable[0]? = some ramWindow := by decide

/-- Both clauses: an address inside the span, one just above it. -/
theorem test_witness_offsetAssembly : serialWindow ∈ windowTable ∧ windowMatches serialWindow 0x7E0007 = true ∧
    (serialWindow.base ≤ 0x7FFFFF ∧ 0x7FFFFF ≤ serialWindow.last) ∧
    ¬(serialWindow.base ≤ 0x800000 ∧ 0x800000 ≤ serialWindow.last) := by decide

/-- Image 0 and image 15 of SERIAL, the first and the last image of TIMER. -/
theorem test_witness_images :
    (0x600000 ≤ (0x600007 : Addr).toNat ∧ (0x600007 : Addr).toNat ≤ 0x7FFFFF ∧
      0x600000 ≤ (0x7E0007 : Addr).toNat ∧ (0x7E0007 : Addr).toNat ≤ 0x7FFFFF ∧
      (0x600007 : Addr).toNat % 0x20000 = (0x7E0007 : Addr).toNat % 0x20000 ∧
      (0x600007 : Addr).toNat % 0x20000 < 8) ∧
    (0x800000 ≤ (0x800003 : Addr).toNat ∧ (0x9FFFFF : Addr).toNat ≤ 0x9FFFFF ∧
      (0x800003 : Addr).toNat % 4 = (0x9FFFFF : Addr).toNat % 4) := by decide

theorem test_witness_step : (small.issue (.line 3 true)).inbox = [.line 3 true] ∧
    decode (.line 3 true) = .ok (.setlineTmrOut3 true) ∧ small.inbox = [] := by decide

/-- Both sides of the refused forms: a refused record and one that is not. -/
theorem test_witness_refusals :
    (∃ x, step (small.issue (.bus .read 32 0 0)) = .refused x) ∧
    (∃ t, step (small.issue (.bus .read 16 0 0)) = .next t) := ⟨⟨_, rfl⟩, ⟨_, rfl⟩⟩

/-- A phase that does not admit an operation, and one that does, for each kind of operation. -/
theorem test_witness_admitted :
    (Instr.rdSwitch .byte 1).admittedIn .built = false ∧ (Instr.reset).admittedIn .unbuilt = false ∧
    (Instr.rdSwitch .byte 1).wf = true ∧ (Instr.rdSwitch .byte 1).admittedIn .running = true ∧
    (Instr.construct [] []).wf = true ∧ (Instr.construct [] []).admittedIn .unbuilt = true := by decide

theorem test_witness_busCycle : small.phase = .running ∧ Size.word.aligned (0xFFFFFFFE : AddrIn)[0] = true ∧
    Size.byte.aligned (0xFFFFFFFF : AddrIn)[0] = true := by decide

theorem test_witness_resolve :
    Size.byte.aligned (0x7E0007 : AddrIn)[0] = true ∧
    resolveAddr (mask24 0x7E0007) = some (serialWindow, 7) ∧ resolveAddr (mask24 0x7E0008) = none := by decide

/-- Storage cycles: a running state, the last word of an array, the last byte of a bank. -/
theorem test_witness_storage : small.phase = .running ∧ (0x1FFFFE : BitVec 21)[0] = false ∧
    (WData.byte 1).size.aligned (0x1FFFFF : BitVec 21)[0] = true ∧
    (WData.word 1).size.aligned (0x1FFE : BitVec 13)[0] = true ∧ (0x1FFFFF : BitVec 21)[0] = true := by decide

theorem test_witness_writeThenRead :
    ∃ t, exec (storeWriteInstr .segmap 0x1FFFFE (.word 0x1234)) small = .next t := ⟨_, rfl⟩

theorem test_witness_bigEndian :
    (decodeWindow (mask24 0x1FFFFE) = some .ram ∧ ∃ t, perform (.bus .write 16 0x1FFFFE 0x1234) small = .next t) ∧
    (decodeWindow (mask24 0xBFFFFE) = some .pagemap ∧
      ∃ t, perform (.bus .write 16 0xBFFFFE 0x1234) small = .next t) ∧
    (decodeWindow (mask24 0xDFFFFE) = some .segmap ∧
      ∃ t, perform (.bus .write 16 0xDFFFFE 0x1234) small = .next t) :=
  ⟨⟨by decide, _, rfl⟩, ⟨by decide, _, rfl⟩, ⟨by decide, _, rfl⟩⟩

theorem test_witness_unmapped : isUnmappedAddr 0x202000 = true ∧ isUnmappedAddr 0x5FFFFF = true ∧
    isUnmappedAddr 0x7FFFFF = true ∧ Size.byte.aligned (0x7FFFFF : Addr)[0] = true ∧
    (WData.word 0).size.aligned (0x202000 : Addr)[0] = true := by decide

theorem test_witness_serial : (6 : BitVec 3)[0] = false ∧ (7 : BitVec 3)[0] = true ∧
    (∃ t, exec (.wrSerial 6 (.byte 1)) small = .next t) ∧ ∃ t, exec (.rdSerial .word 0) small = .next t :=
  ⟨by decide, by decide, ⟨_, rfl⟩, _, rfl⟩

/-- Each kind of operation that calls the serial chip, where its answer pulses the line. -/
theorem test_witness_serialAnswer :
    let s := { small with serialAnswers := [⟨0, [true, false]⟩] }
    s.serialAnswers = [⟨0, [true, false]⟩] ∧ s.irq5 = s.serint ∧ (6 : BitVec 3)[0] = false ∧
    s.tout4 = !true ∧ s.tout5 = !true ∧
    (∃ t, exec (.wrSerial 6 (.byte 1)) s = .next t) ∧ (∃ t, exec (.rdSerial .word 6) s = .next t) ∧
    (∃ t, exec (.setlineTmrOut4 true) s = .next t) ∧ (∃ t, exec (.setlineTmrOut5 true) s = .next t) :=
  ⟨rfl, rfl, by decide, rfl, rfl, ⟨_, rfl⟩, ⟨_, rfl⟩, ⟨_, rfl⟩, _, rfl⟩

/-- 20_memory.md R69: every level of the answer is passed on, in order, a repeated one makes no event (R185). -/
theorem test_serial_pulse :
    let s := { small with serialAnswers := [⟨0, [true, true, false]⟩] }
    (after (.bus .read 16 0x600000 0) s).out = [.cpuIrq 5 true, .cpuIrq 5 false] ∧
    (after (.line 5 true) s).out = [.serialClk .B true, .cpuIrq 5 true, .cpuIrq 5 false] := by decide

theorem test_witness_timer : (2 : BitVec 2)[0] = false ∧ (3 : BitVec 2)[0] = true ∧
    ∃ t, exec (.rdTimer .byte 3) small = .next t := ⟨by decide, by decide, _, rfl⟩

/-- An answer that drives every output, one of them twice, with the serial chip's answers to the two clock edges
listed: a read and a write meet the hypotheses. -/
def busyTimer : State :=
  { small with
    timerAnswers := [⟨0, [(.out1, true), (.out3, true), (.out4, true), (.out3, false), (.out5, true), (.out2, true)]⟩]
    serialAnswers := [⟨0, [true]⟩, ⟨0, [false]⟩] }

theorem test_witness_timerAnswer :
    busyTimer.irq6 = busyTimer.tout2 ∧ busyTimer.irq7 = busyTimer.tout3 ∧
    clockEdges (timerEdges busyTimer.timerLevel
      [(.out1, true), (.out3, true), (.out4, true), (.out3, false), (.out5, true), (.out2, true)]) = 2 ∧
    busyTimer.serialAnswers.length = 2 ∧
    (∃ t, exec (.wrTimer 2 (.word 1)) busyTimer = .next t) ∧ ∃ t, exec (.rdTimer .byte 3) busyTimer = .next t :=
  ⟨rfl, rfl, by decide, rfl, ⟨_, rfl⟩, _, rfl⟩

/-- 20_memory.md R69, 44_board_wiring.md R223: the whole trace of that answer, each clock edge before its
interrupt. -/
theorem test_timer_busy :
    (after (.bus .read 8 0x800003 0) busyTimer).out =
      [.cpuIrq 7 true, .serialClk .A true, .cpuIrq 5 true, .cpuIrq 7 false, .serialClk .B true, .cpuIrq 5 false,
       .cpuIrq 6 true] := by decide

theorem test_witness_lines : small.phase ≠ .unbuilt ∧ small.lineLevel .tmrOut5 = some false ∧
    small.tout4 = !true ∧ small.tout5 = !true ∧ small.irq5 = small.serint ∧ small.irq6 = small.tout2 ∧
    small.irq7 = small.tout3 := by decide

/-- A board that meets the invariant: an operation of each kind the mapping statement tells apart. -/
theorem test_witness_mapping : board.Inv ∧ (∃ t, exec (.setlineSerInt true) board = .next t) ∧
    (∃ t, exec (.setlineTmrOut2 true) board = .next t) ∧ (∃ t, exec (.setlineTmrOut3 true) board = .next t) ∧
    (∃ t, exec (.rdSwitch .word 0) board = .next t) ∧ (Instr.rdSwitch .word 0).mayMoveLines = false :=
  ⟨board_inv, ⟨_, rfl⟩, ⟨_, rfl⟩, ⟨_, rfl⟩, ⟨_, rfl⟩, rfl⟩

/-- Its last clause: both chips answer without a SETLINE to whatever is asked next. -/
theorem test_witness_mapping_quiet :
    let s := { board with serialAnswers := [⟨0, []⟩], timerAnswers := [⟨0, []⟩] }
    s.Inv ∧ (∃ t, exec (.wrTimer 2 (.word 1)) s = .next t) ∧
    (∀ c, (s.serialAnswer c).ints = []) ∧ ∀ c, (s.timerAnswer c).outs = [] :=
  ⟨{ board_inv with }, ⟨_, rfl⟩, fun _ => rfl, fun _ => rfl⟩

theorem test_witness_unwired : (∀ l v, OutEvent.cpuIrq l v ∈ small.out → 5 ≤ l) ∧
    ∃ t, step (small.issue (.line 0 true)) = .next t := ⟨nofun, _, rfl⟩

theorem test_witness_reset : small.phase ≠ .unbuilt ∧ ∃ t u, exec .reset small = .next t ∧
    exec (.wrRam 0 (.word 0xFFFF)) t = .next u := ⟨by decide, _, _, rfl, rfl⟩

theorem test_witness_construct : State.powerOn.phase = .unbuilt ∧ board.rom0.length = 0x2000 ∧
    board.rom1.length = 0x2000 ∧ [(0 : Byte), 0, 0, 0, 0, 0, 0].length < 8 :=
  ⟨rfl, List.length_replicate .., List.length_replicate .., by decide⟩

theorem test_witness_errors : ∃ t, exec (.rdUnmapped .word 0x202000) small = .next t ∧
    t.resp = .error (.unmappedAccess 0x202000) := ⟨_, rfl, by decide⟩

theorem test_witness_streams : ([0, 1] : List Byte).length = ([2, 3] : List Byte).length ∧
    bankOfStreams [0, 1] [2, 3] = [0, 2, 1, 3] := by decide

/-- A step from a state that meets the invariant, for the statements about every step. -/
theorem test_witness_invariant : (board.issue (.line 4 true)).Inv ∧
    ∃ t, step (board.issue (.line 4 true)) = .next t := ⟨{ board_inv with }, _, rfl⟩

theorem test_witness_lifecycle : small.phase = .running ∧ small.phase ≠ .unbuilt ∧
    ∃ t, step (small.issue .reset) = .next t := ⟨rfl, by decide, _, rfl⟩

theorem test_witness_stubs : (Instr.wrPagemap 0 (.byte 1)).readsStub = false ∧ (Instr.reset).readsStub = false := by
  decide

/-- The highest address at which both words of a 32-bit access are in RAM. -/
theorem test_witness_wr32 : (0x1FFFFC : AddrIn)[0] = false ∧ decodeWindow (mask24 0x1FFFFC) = some .ram ∧
    decodeWindow (mask24 (0x1FFFFC + 2)) = some .ram ∧ ∃ r t, wr32 0x1FFFFC 0x12345678 small = (r, .next t) :=
  ⟨by decide, by decide, by decide, _, _, rfl⟩

end Sys2Proof.Tests
end

section
/-! PROOFS. The AddressDecoder (40_decode.md): the window table matches an address at most once, only the masked
address counts, and RESOLVE is a bare query. -/

namespace Sys2Proof.Machine

/-! ## The window table -/

/-- The windows stand in the table in the order of their spans, each ending below the next one's base
(10_state.md R34). This is why no address matches two of them. -/
theorem windowTable_spans_ascend : windowTable.Pairwise (fun w v => w.last < v.base) := by decide

/-- An address that a window matches is in the window's span (40_decode.md R113). -/
theorem windowMatches_span {w : Window} {a : Nat} (h : windowMatches w a = true) : w.base ≤ a ∧ a ≤ w.last := by
  obtain ⟨hbase, hlast, -⟩ := (windowMatches_iff w a).1 h
  exact ⟨hbase, hlast⟩

/-- No two windows of the table match the same address (40_decode.md R119). -/
theorem windowTable_apart (a : Nat) :
    windowTable.Pairwise (fun w v => windowMatches w a = true → ¬ windowMatches v a = true) := by
  refine windowTable_spans_ascend.imp fun {w v} hspans hw hv => ?_
  have hlast := (windowMatches_span hw).2
  have hbase := (windowMatches_span hv).1
  omega

/-- Of a list whose members exclude each other, at most one is selected. -/
theorem length_filter_le_one {α : Type} {p : α → Bool} {l : List α}
    (h : l.Pairwise (fun x y => p x = true → ¬ p y = true)) : (l.filter p).length ≤ 1 := by
  have hsel : (l.filter p).Pairwise (fun _ _ => False) := List.pairwise_filter.2 h
  match l.filter p, hsel with
  | [], _ => exact Nat.zero_le 1
  | [_], _ => exact Nat.le_refl 1
  | x :: y :: _, hsel => exact (List.rel_of_pairwise_cons hsel (List.mem_cons_self ..)).elim

/-- The search of two permuted tables gives the same answer where at most one window matches: the windows that
match are then the same list. -/
theorem resolveIn_perm {table table' : List Window} {a : Nat} (hperm : table.Perm table')
    (hone : (table'.filter (fun w => windowMatches w a)).length ≤ 1) :
    resolveIn table a = resolveIn table' a := by
  have hsame : table.filter (fun w => windowMatches w a) = table'.filter (fun w => windowMatches w a) := by
    have hmatch := hperm.filter (fun w => windowMatches w a)
    match table'.filter (fun w => windowMatches w a), hone, hmatch with
    | [], _, hmatch => exact hmatch.eq_nil
    | [_], _, hmatch => exact hmatch.eq_singleton
  unfold resolveIn
  rw [← List.head?_filter, hsame, List.head?_filter]

/-! ## The masked address -/

/-- Bit 0 of an address is not masked off. -/
theorem mask24_bit0 (addr : AddrIn) : (mask24 addr)[0] = addr[0] := by simp [mask24]

/-- What is above bit 23 does not reach the masked address (40_decode.md R111). -/
theorem mask24_add_high (addr k : AddrIn) : mask24 (addr + k * 0x1000000) = mask24 addr := by
  apply BitVec.eq_of_toNat_eq
  have hunit : (0x1000000 : AddrIn).toNat = 0x1000000 := rfl
  rw [mask24_toNat, mask24_toNat, BitVec.toNat_add, BitVec.toNat_mul, hunit]
  simp only [addrInWidth]
  omega

/-- A bus cycle sees its address through the mask only. -/
theorem perform_bus_congr {addr addr' : AddrIn} (h : mask24 addr = mask24 addr') (rw : Rw) (size : Nat)
    (data : BusWord) (s : State) :
    perform (.bus rw size addr data) s = perform (.bus rw size addr' data) s := by
  have hdecode : decode (.bus rw size addr data) = decode (.bus rw size addr' data) := by
    cases rw <;> simp only [decode, h]
  simp only [perform, hdecode]

/-! ## RESOLVE -/

/-- RESOLVE sees its address through the mask only. -/
theorem exec_resolve_congr {addr addr' : AddrIn} (h : mask24 addr = mask24 addr') (size : Size) (s : State) :
    exec (.resolve addr size) s = exec (.resolve addr' size) s := by
  simp only [exec, execResolve, h]

/-- So does its record, in the answer and in the refused forms. -/
theorem perform_query_congr {addr addr' : AddrIn} (h : mask24 addr = mask24 addr') (size : Nat) (s : State) :
    perform (.query addr size) s = perform (.query addr' size) s := by
  simp only [perform, decode, h]
  cases admitSize size (mask24 addr') with
  | error e => rfl
  | ok sz => exact exec_resolve_congr h sz s

/-- An aligned RESOLVE of an address that a window matches answers the window and the offset (40_decode.md
R110). -/
theorem exec_resolve_mapped {addr : AddrIn} {size : Size} {w : Window} {off : Nat} (s : State)
    (ha : size.aligned addr[0] = true) (hr : resolveAddr (mask24 addr) = some (w, off)) :
    exec (.resolve addr size) s = .next (s.respond (.resolved w.name off)) := by
  simp only [exec, execResolve, mask24_bit0, ha, hr, if_true]

/-- An aligned RESOLVE of any other address raises UnmappedAccess (40_decode.md R117). -/
theorem exec_resolve_unmapped {addr : AddrIn} {size : Size} (s : State)
    (ha : size.aligned addr[0] = true) (hr : resolveAddr (mask24 addr) = none) :
    exec (.resolve addr size) s = .next (s.respond (.error (.unmappedAccess (mask24 addr)))) := by
  simp only [exec, execResolve, mask24_bit0, ha, hr, if_true, State.raise]

/-! ## The obligations -/

/-- Settles O3: the spans of the table ascend, so at most one window matches, and a search that can find only
one window does not see the order. -/
theorem noTwoWindowsMatch : Obligations.NoTwoWindowsMatch := by
  intro a
  have hone := length_filter_le_one (windowTable_apart a.toNat)
  exact ⟨hone, fun _ hperm => resolveIn_perm hperm hone⟩

/-- Settles O7: every cycle and every RESOLVE sees the masked address only. -/
theorem highAddressBitsAreIgnored : Obligations.HighAddressBitsAreIgnored := by
  intro rw size addr k data s
  have hmask := mask24_add_high addr k
  exact ⟨BitVec.setWidth_eq_extractLsb' (by decide), perform_bus_congr hmask rw size data s,
    perform_query_congr hmask size s⟩

/-- Settles O15, by the two outcomes of RESOLVE's search. -/
theorem resolveAnswers : Obligations.ResolveAnswers := by
  intro s addr size haligned
  exact ⟨fun _ _ hmapped => exec_resolve_mapped s haligned hmapped, exec_resolve_unmapped s haligned⟩

end Sys2Proof.Machine
end

section
/-! Bus cycles of the switch register (41_window_access.md section 7). -/

namespace Sys2Proof.Machine

/-- The handler of a switch write has no side effect, whatever its data and lanes. -/
@[simp] theorem writeSwitch_eq (b l : BusWord) (s : State) : writeSwitch b l s = s := rfl

/-- Settles O22: an aligned write on a running board answers the handler's state, which is the one it got. -/
theorem switchWritesAreIgnored : Obligations.SwitchWritesAreIgnored := by
  intro off d s hrunning haligned
  rw [exec_wrSwitch, busWrite_next]
  exact ⟨hrunning, haligned, by rw [writeSwitch_eq]⟩

end Sys2Proof.Machine
end

section
/-! PROOFS. The interrupt router (42_interrupt_router.md): the levels the processor sees, what SETLINE of an
interrupt source does to them, and which events a step can add to the trace. -/

namespace Sys2Proof.Machine

/-! ## The levels on the processor's inputs -/

@[simp] theorem irqOut_five (s : State) : s.irqOut 5 = s.irq5 := rfl
@[simp] theorem irqOut_six (s : State) : s.irqOut 6 = s.irq6 := rfl
@[simp] theorem irqOut_seven (s : State) : s.irqOut 7 = s.irq7 := rfl

/-- Levels 1 to 4 are not wired (42_interrupt_router.md R187). -/
theorem irqOut_unwired (s : State) {l : Nat} (hl : l ≤ 4) : s.irqOut l = false := by
  have h5 : l ≠ irqSerial := by simp only [irqSerial]; omega
  have h6 : l ≠ irqTimer2 := by simp only [irqTimer2]; omega
  have h7 : l ≠ irqTimer3 := by simp only [irqTimer3]; omega
  simp only [State.irqOut, h5, h6, h7, if_false]

/-! ## SETLINE of an interrupt source: its own level follows, the other two stay -/

section
variable (s : State) (v : Bool)

theorem setSerInt_irq5 (hsource : s.irq5 = s.serint) : (s.setSerInt v).irq5 = v := by
  rcases setSerInt_cases s v with ⟨hsame, h⟩ | ⟨-, h⟩ <;> rw [h]
  exact hsource.trans hsame

theorem setTmrOut2_irq6 (hsource : s.irq6 = s.tout2) : (s.setTmrOut2 v).irq6 = v := by
  rcases setTmrOut2_cases s v with ⟨hsame, h⟩ | ⟨-, h⟩ <;> rw [h]
  exact hsource.trans hsame

theorem setTmrOut3_irq7 (hsource : s.irq7 = s.tout3) : (s.setTmrOut3 v).irq7 = v := by
  rcases setTmrOut3_cases s v with ⟨hsame, h⟩ | ⟨-, h⟩ <;> rw [h]
  exact hsource.trans hsame

/-- SETLINE SER_INT moves nothing of levels 6 and 7, and no phase (42_interrupt_router.md R192). -/
theorem setSerInt_frame :
    (s.setSerInt v).phase = s.phase ∧ (s.setSerInt v).irq6 = s.irq6 ∧ (s.setSerInt v).tout2 = s.tout2 ∧
      (s.setSerInt v).irq7 = s.irq7 ∧ (s.setSerInt v).tout3 = s.tout3 := by
  rcases setSerInt_cases s v with ⟨-, h⟩ | ⟨-, h⟩ <;> simp [h]

/-- SETLINE TMR_OUT2 moves nothing of levels 5 and 7, and no phase. -/
theorem setTmrOut2_frame :
    (s.setTmrOut2 v).phase = s.phase ∧ (s.setTmrOut2 v).irq5 = s.irq5 ∧ (s.setTmrOut2 v).serint = s.serint ∧
      (s.setTmrOut2 v).irq7 = s.irq7 ∧ (s.setTmrOut2 v).tout3 = s.tout3 := by
  rcases setTmrOut2_cases s v with ⟨-, h⟩ | ⟨-, h⟩ <;> simp [h]

/-- SETLINE TMR_OUT3 moves nothing of levels 5 and 6, and no phase. -/
theorem setTmrOut3_frame :
    (s.setTmrOut3 v).phase = s.phase ∧ (s.setTmrOut3 v).irq5 = s.irq5 ∧ (s.setTmrOut3 v).serint = s.serint ∧
      (s.setTmrOut3 v).irq6 = s.irq6 ∧ (s.setTmrOut3 v).tout2 = s.tout2 := by
  rcases setTmrOut3_cases s v with ⟨-, h⟩ | ⟨-, h⟩ <;> simp [h]

end

/-! ## The events that an operation adds to the trace -/

/-- Every event of `t`'s trace is one of `s`'s trace or a legal one (10_state.md R33): what an operation may do
to the trace. It speaks of events, not of positions, since CONSTRUCT starts the trace anew. -/
def AddsLegal (s t : State) : Prop := ∀ e ∈ t.out, e ∈ s.out ∨ e.legal = true

theorem AddsLegal.of_out_eq {s t : State} (h : t.out = s.out) : AddsLegal s t :=
  fun _ he => .inl (h ▸ he)

theorem AddsLegal.trans {s t u : State} (hst : AddsLegal s t) (htu : AddsLegal t u) : AddsLegal s u :=
  fun e he => (htu e he).elim (hst e) .inr

/-- The trace gains one legal event. -/
theorem AddsLegal.of_snoc {s t : State} {e : OutEvent} (h : t.out = s.out ++ [e]) (hlegal : e.legal = true) :
    AddsLegal s t := by
  intro d hd
  rw [h, List.mem_append, List.mem_singleton] at hd
  exact hd.imp_right (by rintro rfl; exact hlegal)

/-- A list of changes made in turn, each adding legal events. -/
theorem AddsLegal.foldl {α : Type} {f : State → α → State} (hf : ∀ s x, AddsLegal s (f s x)) (xs : List α)
    (s : State) : AddsLegal s (xs.foldl f s) := by
  induction xs generalizing s with
  | nil => exact .of_out_eq rfl
  | cons x xs ih => exact (hf s x).trans (ih (f s x))

section
variable (s : State)

theorem setSerInt_addsLegal (v : Bool) : AddsLegal s (s.setSerInt v) := by
  rcases setSerInt_cases s v with ⟨-, h⟩ | ⟨-, h⟩ <;> rw [h]
  · exact .of_out_eq rfl
  · exact .of_snoc rfl rfl

/-- The serial chip's own SETLINEs are all SER_INT (20_memory.md R68). -/
theorem callSerial_addsLegal (c : DevCall) : AddsLegal s (s.callSerial c) :=
  AddsLegal.trans (t := s.askSerial c) (.of_out_eq rfl) (.foldl setSerInt_addsLegal _ _)

theorem setTmrOut2_addsLegal (v : Bool) : AddsLegal s (s.setTmrOut2 v) := by
  rcases setTmrOut2_cases s v with ⟨-, h⟩ | ⟨-, h⟩ <;> rw [h]
  · exact .of_out_eq rfl
  · exact .of_snoc rfl rfl

theorem setTmrOut3_addsLegal (v : Bool) : AddsLegal s (s.setTmrOut3 v) := by
  rcases setTmrOut3_cases s v with ⟨-, h⟩ | ⟨-, h⟩ <;> rw [h]
  · exact .of_out_eq rfl
  · exact .of_snoc rfl rfl

theorem setTmrOut4_addsLegal (v : Bool) : AddsLegal s (s.setTmrOut4 v) := by
  rcases setTmrOut4_cases s v with ⟨-, h⟩ | ⟨-, h⟩ <;> rw [h]
  · exact .of_out_eq rfl
  · exact AddsLegal.trans (.of_snoc rfl rfl) (callSerial_addsLegal _ _)

theorem setTmrOut5_addsLegal (v : Bool) : AddsLegal s (s.setTmrOut5 v) := by
  rcases setTmrOut5_cases s v with ⟨-, h⟩ | ⟨-, h⟩ <;> rw [h]
  · exact .of_out_eq rfl
  · exact AddsLegal.trans (.of_snoc rfl rfl) (callSerial_addsLegal _ _)

theorem setTimerOut_addsLegal (ch : TimerOut) (v : Bool) : AddsLegal s (s.setTimerOut ch v) := by
  cases ch with
  | out1 => exact .of_out_eq rfl
  | out2 => exact setTmrOut2_addsLegal s v
  | out3 => exact setTmrOut3_addsLegal s v
  | out4 => exact setTmrOut4_addsLegal s v
  | out5 => exact setTmrOut5_addsLegal s v

theorem callTimer_addsLegal (c : DevCall) : AddsLegal s (s.callTimer c) :=
  AddsLegal.trans (t := s.askTimer c) (.of_out_eq rfl)
    (.foldl (fun t (x : TimerOut × Bool) => setTimerOut_addsLegal t x.1 x.2) _ _)

/-! ## The handlers of the windows -/

@[simp] theorem storeWrite_out (st : Store) (wo : Nat) (b l : BusWord) : (s.storeWrite st wo b l).out = s.out := by
  rw [storeWrite_eq, setMem_out]

/-- A SERIAL read calls the chip or draws a free byte, and then draws the other lane's byte. -/
theorem readSerial_addsLegal (off : BitVec serialOffWidth) (l : BusWord) :
    AddsLegal s (readSerial off l s).2 := by
  have hchip : AddsLegal s (serialByte off l s).2 := by
    unfold serialByte
    split
    · exact callSerial_addsLegal s _
    · exact .of_out_eq rfl
  exact hchip.trans (.of_out_eq rfl)

theorem writeSerial_addsLegal (off : BitVec serialOffWidth) (b l : BusWord) :
    AddsLegal s (writeSerial off b l s) := by
  unfold writeSerial
  split
  · exact callSerial_addsLegal s _
  · exact .of_out_eq rfl

@[simp] theorem bootCopy_out : s.bootCopy.out = s.out := by rw [bootCopy_eq, setMem_out]

end

/-! ## The operations -/

section
variable {s t : State}

/-- A bus read adds what its handler adds. -/
theorem busRead_addsLegal {size : Size} {odd : Bool} {handler : BusWord → State → BusWord × State}
    (h : busRead size odd handler s = .next t) (hadds : ∀ l, AddsLegal s (handler l s).2) : AddsLegal s t := by
  obtain ⟨-, -, rfl⟩ := busRead_next.1 h
  exact (hadds _).trans (.of_out_eq rfl)

/-- A bus write adds what its handler adds. -/
theorem busWrite_addsLegal {d : WData} {odd : Bool} {handler : BusWord → BusWord → State → State}
    (h : busWrite d odd handler s = .next t) (hadds : ∀ b l, AddsLegal s (handler b l s)) : AddsLegal s t := by
  obtain ⟨-, -, rfl⟩ := busWrite_next.1 h
  exact (hadds _ _).trans (.of_out_eq rfl)

theorem lineOp_addsLegal {f : State → State} (h : lineOp f s = .next t) (hadds : AddsLegal s (f s)) :
    AddsLegal s t := by
  obtain ⟨-, rfl⟩ := lineOp_next.1 h
  exact hadds.trans (.of_out_eq rfl)

theorem unmappedCycle_addsLegal {size : Size} {a : Addr} (h : unmappedCycle size a s = .next t) :
    AddsLegal s t := by
  obtain ⟨-, -, -, rfl⟩ := unmappedCycle_next.1 h
  exact .of_out_eq rfl

theorem execReset_addsLegal (h : execReset s = .next t) : AddsLegal s t := by
  unfold execReset at h
  split at h
  · cases h
    exact .of_snoc (e := .cpuReset) (by simp) rfl
  · cases h

/-- A constructed board's trace holds the pin events only (44_board_wiring.md R218). -/
theorem built_addsLegal (s : State) (rom0 rom1 : List Byte) : AddsLegal s (s.built rom0 rom1) := by
  have hpins : ∀ e ∈ pinEvents, e.legal = true := by decide
  exact fun e he => .inr (hpins e he)

theorem execConstruct_addsLegal {rom0 rom1 : List Byte} (h : execConstruct rom0 rom1 s = .next t) :
    AddsLegal s t := by
  unfold execConstruct at h
  rw [if_pos tables_valid] at h
  split at h
  · split at h
    · cases h
      exact .of_out_eq rfl
    · split at h
      · cases h
        exact (built_addsLegal s rom0 rom1).trans (.of_out_eq rfl)
      · cases h
  · cases h

theorem execResolve_addsLegal {addr : AddrIn} {size : Size} (h : execResolve addr size s = .next t) :
    AddsLegal s t := by
  unfold execResolve at h
  split at h
  · split at h <;> cases h <;> exact .of_out_eq rfl
  · cases h

/-- The storage windows' reads add nothing, and neither do their writes. -/
theorem exec_storeRead_addsLegal (st : Store) {size : Size} {off : BitVec 21}
    (h : exec (storeReadInstr st size off) s = .next t) : AddsLegal s t := by
  rw [exec_storeRead] at h
  exact busRead_addsLegal h fun _ => .of_out_eq rfl

theorem exec_storeWrite_addsLegal (st : Store) {off : BitVec 21} {d : WData}
    (h : exec (storeWriteInstr st off d) s = .next t) : AddsLegal s t := by
  rw [exec_storeWrite] at h
  exact busWrite_addsLegal h fun _ _ => .of_out_eq (storeWrite_out ..)

theorem exec_bankRead_addsLegal (b : Bank) {size : Size} {off : BitVec 13}
    (h : exec (bankReadInstr b size off) s = .next t) : AddsLegal s t := by
  rw [exec_bankRead] at h
  exact busRead_addsLegal h fun _ => .of_out_eq rfl

theorem exec_bankWrite_addsLegal (b : Bank) {off : BitVec 13} {d : WData}
    (h : exec (bankWriteInstr b off d) s = .next t) : AddsLegal s t := by
  rw [exec_bankWrite] at h
  exact busWrite_addsLegal h fun _ _ => .of_out_eq rfl

/-- Every event that an operation adds to the trace is legal (10_state.md R33). -/
theorem exec_addsLegal {i : Instr} (h : exec i s = .next t) : AddsLegal s t := by
  cases i with
  | rdRam => exact exec_storeRead_addsLegal .ram h
  | wrRam => exact exec_storeWrite_addsLegal .ram h
  | rdPagemap => exact exec_storeRead_addsLegal .pagemap h
  | wrPagemap => exact exec_storeWrite_addsLegal .pagemap h
  | rdSegmap => exact exec_storeRead_addsLegal .segmap h
  | wrSegmap => exact exec_storeWrite_addsLegal .segmap h
  | rdRom0 => exact exec_bankRead_addsLegal .rom0 h
  | wrRom0 => exact exec_bankWrite_addsLegal .rom0 h
  | rdRom1 => exact exec_bankRead_addsLegal .rom1 h
  | wrRom1 => exact exec_bankWrite_addsLegal .rom1 h
  | rdSerial =>
    rw [exec_rdSerial] at h
    exact busRead_addsLegal h (readSerial_addsLegal s _)
  | wrSerial =>
    rw [exec_wrSerial] at h
    exact busWrite_addsLegal h (writeSerial_addsLegal s _)
  | rdTimer =>
    rw [exec_rdTimer] at h
    exact busRead_addsLegal h fun _ => callTimer_addsLegal s _
  | wrTimer =>
    rw [exec_wrTimer] at h
    exact busWrite_addsLegal h fun _ _ => callTimer_addsLegal s _
  | rdSwitch =>
    rw [exec_rdSwitch] at h
    exact busRead_addsLegal h fun _ => .of_out_eq rfl
  | wrSwitch =>
    rw [exec_wrSwitch] at h
    exact busWrite_addsLegal h fun _ _ => .of_out_eq rfl
  | rdUnmapped => exact unmappedCycle_addsLegal h
  | wrUnmapped => exact unmappedCycle_addsLegal h
  | setlineSerInt v =>
    rw [exec_setlineSerInt] at h
    exact lineOp_addsLegal h (setSerInt_addsLegal s v)
  | setlineTmrOut1 =>
    rw [exec_setlineTmrOut1] at h
    exact lineOp_addsLegal h (.of_out_eq rfl)
  | setlineTmrOut2 v =>
    rw [exec_setlineTmrOut2] at h
    exact lineOp_addsLegal h (setTmrOut2_addsLegal s v)
  | setlineTmrOut3 v =>
    rw [exec_setlineTmrOut3] at h
    exact lineOp_addsLegal h (setTmrOut3_addsLegal s v)
  | setlineTmrOut4 v =>
    rw [exec_setlineTmrOut4] at h
    exact lineOp_addsLegal h (setTmrOut4_addsLegal s v)
  | setlineTmrOut5 v =>
    rw [exec_setlineTmrOut5] at h
    exact lineOp_addsLegal h (setTmrOut5_addsLegal s v)
  | reset => exact execReset_addsLegal h
  | construct => exact execConstruct_addsLegal h
  | resolve => exact execResolve_addsLegal h

/-- A step that answers a next state found no record, and then changed nothing, or performed the operation of
the next record. -/
theorem step_next_cases (h : step s = .next t) :
    t = s ∨ ∃ r rest i, s.inbox = r :: rest ∧ decode r = .ok i ∧ exec i { s with inbox := rest } = .next t := by
  unfold step State.fetch at h
  cases hinbox : s.inbox with
  | nil =>
    rw [hinbox] at h
    cases h
    exact .inl rfl
  | cons r rest =>
    rw [hinbox] at h
    cases hdecode : decode r with
    | error e => simp only [perform, hdecode, reduceCtorEq] at h
    | ok i => exact .inr ⟨r, rest, i, rfl, hdecode, by simpa only [perform, hdecode] using h⟩

/-- Every event that a step adds to the trace is legal (10_state.md R33). -/
theorem step_addsLegal (h : step s = .next t) : AddsLegal s t := by
  rcases step_next_cases h with rfl | ⟨_, rest, _, -, -, hexec⟩
  · exact .of_out_eq rfl
  · exact AddsLegal.trans (t := { s with inbox := rest }) (.of_out_eq rfl) (exec_addsLegal hexec)

end

/-- A legal event on a processor input is on level 5, 6 or 7 (42_interrupt_router.md R187). -/
theorem level_of_legal {l : Nat} {v : Bool} (h : (OutEvent.cpuIrq l v).legal = true) : 5 ≤ l := by
  simp only [OutEvent.legal, irqSerial, irqTimer2, irqTimer3, Bool.or_eq_true, beq_iff_eq] at h
  omega

/-! ## The obligations -/

/-- Settles O39: the wired levels by the definition's three cases, the others by `irqOut_unwired`. -/
theorem irqOutShowsTheWiredLevels : Obligations.IrqOutShowsTheWiredLevels := by
  intro s
  exact ⟨irqOut_five s, irqOut_six s, irqOut_seven s, fun _ _ hl => irqOut_unwired s hl⟩

/-- Settles O40: each SETLINE sets its own level, and the frames carry it, the phase and the next source's
premise over the other two. -/
theorem anySubsetOfLevelsIsShown : Obligations.AnySubsetOfLevelsIsShown := by
  intro v5 v6 v7 s hphase h5 h6 h7
  let t := (s.setSerInt v5).respond .done
  let u := (t.setTmrOut2 v6).respond .done
  let w := (u.setTmrOut3 v7).respond .done
  obtain ⟨htPhase, htIrq6, htTout2, htIrq7, htTout3⟩ := setSerInt_frame s v5
  obtain ⟨huPhase, huIrq5, -, huIrq7, huTout3⟩ := setTmrOut2_frame t v6
  obtain ⟨-, hwIrq5, -, hwIrq6, -⟩ := setTmrOut3_frame u v7
  have ht6 : t.irq6 = t.tout2 := htIrq6.trans (h6.trans htTout2.symm)
  have ht7 : t.irq7 = t.tout3 := htIrq7.trans (h7.trans htTout3.symm)
  have hu7 : u.irq7 = u.tout3 := huIrq7.trans (ht7.trans huTout3.symm)
  have htAdmits : t.phase ≠ .unbuilt := fun h => hphase (htPhase.symm.trans h)
  have huAdmits : u.phase ≠ .unbuilt := fun h => htAdmits (huPhase.symm.trans h)
  refine ⟨t, u, w, ?_, ?_, ?_, ?_, ?_, ?_, fun _ _ hl => irqOut_unwired w hl⟩
  · rw [exec_setlineSerInt]
    exact lineOp_next.2 ⟨hphase, rfl⟩
  · rw [exec_setlineTmrOut2]
    exact lineOp_next.2 ⟨htAdmits, rfl⟩
  · rw [exec_setlineTmrOut3]
    exact lineOp_next.2 ⟨huAdmits, rfl⟩
  · exact hwIrq5.trans (huIrq5.trans (setSerInt_irq5 s v5 h5))
  · exact hwIrq6.trans (setTmrOut2_irq6 t v6 ht6)
  · exact setTmrOut3_irq7 u v7 hu7

/-- Settles O42: an event of the new trace is an old one, on a wired level by the premise, or a legal one. -/
theorem unwiredLevelsAreNeverAsserted : Obligations.UnwiredLevelsAreNeverAsserted := by
  intro s t hwired hstep
  refine ⟨fun l v hmem => ?_, fun _ _ hl => irqOut_unwired t hl⟩
  exact (step_addsLegal hstep _ hmem).elim (hwired l v) level_of_legal

end Sys2Proof.Machine
end

section
/-! PROOFS. Errors (60_exceptions.md): an operation that raises one changes the response only, and no operation
sees what the last one answered. -/

namespace Sys2Proof.Machine

/-! ## The shared operations neither read nor set the response -/

section
variable (s : State) (r : Response)

theorem setMem_respond (st : Store) (m : Memory) : (s.respond r).setMem st m = (s.setMem st m).respond r := by
  cases st <;> rfl

theorem setCell_respond (st : Store) (i : Nat) (v : Byte) :
    (s.respond r).setCell st i v = (s.setCell st i v).respond r := by
  rw [setCell_eq, mem_respond, setMem_respond, setCell_eq]

/-- A store is at most two cell writes, and the lanes alone say which. -/
theorem storeWrite_respond (st : Store) (wo : Nat) (b l : BusWord) :
    (s.respond r).storeWrite st wo b l = (s.storeWrite st wo b l).respond r := by
  unfold State.storeWrite
  split <;> split <;> simp only [setCell_respond]

theorem bootCopy_respond : (s.respond r).bootCopy = s.bootCopy.respond r := by
  rw [bootCopy_eq, setMem_respond, bootCopy_eq s]
  rfl

theorem setSerInt_respond (v : Bool) : (s.respond r).setSerInt v = (s.setSerInt v).respond r := by
  unfold State.setSerInt
  rw [respond_serint]
  split <;> rfl

theorem callSerial_respond (c : DevCall) : (s.respond r).callSerial c = (s.callSerial c).respond r := by
  rw [callSerial_eq, callSerial_eq s]
  rfl

theorem setTmrOut2_respond (v : Bool) : (s.respond r).setTmrOut2 v = (s.setTmrOut2 v).respond r := by
  unfold State.setTmrOut2
  rw [respond_tout2]
  split <;> rfl

theorem setTmrOut3_respond (v : Bool) : (s.respond r).setTmrOut3 v = (s.setTmrOut3 v).respond r := by
  unfold State.setTmrOut3
  rw [respond_tout3]
  split <;> rfl

theorem setTmrOut4_respond (v : Bool) : (s.respond r).setTmrOut4 v = (s.setTmrOut4 v).respond r := by
  unfold State.setTmrOut4
  rw [respond_tout4]
  split
  · rfl
  · exact callSerial_respond ({ s with tout4 := v }.emit (.serialClk .A v)) r _

theorem setTmrOut5_respond (v : Bool) : (s.respond r).setTmrOut5 v = (s.setTmrOut5 v).respond r := by
  unfold State.setTmrOut5
  rw [respond_tout5]
  split
  · rfl
  · exact callSerial_respond ({ s with tout5 := v }.emit (.serialClk .B v)) r _

theorem setTimerOut_respond (ch : TimerOut) (v : Bool) :
    (s.respond r).setTimerOut ch v = (s.setTimerOut ch v).respond r := by
  cases ch with
  | out1 => rfl
  | out2 => exact setTmrOut2_respond s r v
  | out3 => exact setTmrOut3_respond s r v
  | out4 => exact setTmrOut4_respond s r v
  | out5 => exact setTmrOut5_respond s r v

/-- The SETLINEs of the timer chip's answer are made in turn, and the answer itself is the same. -/
theorem callTimer_respond (c : DevCall) : (s.respond r).callTimer c = (s.callTimer c).respond r :=
  List.foldl_hom (init := s.askTimer c) (g₁ := fun t (x : TimerOut × Bool) => t.setTimerOut x.1 x.2)
    (State.respond · r) fun t x => setTimerOut_respond t r x.1 x.2

theorem writeSerial_respond (off : BitVec serialOffWidth) (b l : BusWord) :
    writeSerial off b l (s.respond r) = (writeSerial off b l s).respond r := by
  unfold writeSerial
  split
  · exact callSerial_respond s r _
  · rfl

/-- The bus word of a SERIAL read is the same too: the answers and the draws do not depend on the response. -/
theorem readSerial_respond (off : BitVec serialOffWidth) (l : BusWord) :
    readSerial off l (s.respond r) = ((readSerial off l s).1, (readSerial off l s).2.respond r) := by
  have hchip : serialByte off l (s.respond r) = ((serialByte off l s).1, (serialByte off l s).2.respond r) := by
    unfold serialByte
    split
    · exact Prod.ext rfl (callSerial_respond s r _)
    · rfl
  unfold readSerial
  rw [hchip]
  rfl

theorem readTimer_respond (off : BitVec timerOffWidth) (l : BusWord) :
    readTimer off l (s.respond r) = ((readTimer off l s).1, (readTimer off l s).2.respond r) :=
  Prod.ext rfl (callTimer_respond s r _)

end

/-! ## Errors of the operations -/

/-- What 60_exceptions.md R240 asks of an operation: it does not see the last response, and where its own
response is an error, that is all it changed. -/
structure RaisesCleanly (op : State → Host.Outcome State Fault Refusal) : Prop where
  ignores_resp : ∀ s r, op (s.respond r) = op s
  error_only : ∀ s t e, op s = .next t → t.resp = .error e → t = s.respond (.error e)

/-- The property goes over along an equation, such as those of the operations' arms. -/
theorem RaisesCleanly.of_eq {op op' : State → Host.Outcome State Fault Refusal} (h : ∀ s, op s = op' s)
    (hop : RaisesCleanly op') : RaisesCleanly op := funext h ▸ hop

/-- An operation that never answers an error has only the first part to show. -/
theorem RaisesCleanly.of_no_error {op : State → Host.Outcome State Fault Refusal}
    (hresp : ∀ s r, op (s.respond r) = op s) (hno : ∀ s t e, op s = .next t → t.resp ≠ .error e) :
    RaisesCleanly op :=
  ⟨hresp, fun s t e h herr => absurd herr (hno s t e h)⟩

theorem laneResponse_ne_error (size : Size) (odd : Bool) (b : BusWord) (e : BoardError) :
    laneResponse size odd b ≠ .error e := by
  cases size <;> simp [laneResponse]

/-- A bus read answers data, never an error. -/
theorem busRead_raisesCleanly {size : Size} {odd : Bool} {handler : BusWord → State → BusWord × State}
    (hresp : ∀ l s r, handler l (s.respond r) = ((handler l s).1, (handler l s).2.respond r)) :
    RaisesCleanly (busRead size odd handler) := by
  refine .of_no_error (fun s r => ?_) fun s t e h => ?_
  · unfold busRead
    rw [hresp]
    rfl
  · obtain ⟨-, -, rfl⟩ := busRead_next.1 h
    rw [respond_resp]
    exact laneResponse_ne_error size odd _ e

theorem busWrite_raisesCleanly {d : WData} {odd : Bool} {handler : BusWord → BusWord → State → State}
    (hresp : ∀ b l s r, handler b l (s.respond r) = (handler b l s).respond r) :
    RaisesCleanly (busWrite d odd handler) := by
  refine .of_no_error (fun s r => ?_) fun s t e h => ?_
  · unfold busWrite
    rw [hresp]
    rfl
  · obtain ⟨-, -, rfl⟩ := busWrite_next.1 h
    simp

theorem lineOp_raisesCleanly {f : State → State} (hresp : ∀ s r, f (s.respond r) = (f s).respond r) :
    RaisesCleanly (lineOp f) := by
  refine .of_no_error (fun s r => ?_) fun s t e h => ?_
  · unfold lineOp
    rw [hresp]
    rfl
  · obtain ⟨-, rfl⟩ := lineOp_next.1 h
    simp

/-- An unmapped cycle raises UnmappedAccess (41_window_access.md R154, R155). -/
theorem unmappedCycle_raisesCleanly (size : Size) (a : Addr) : RaisesCleanly (unmappedCycle size a) := by
  refine ⟨fun _ _ => rfl, fun s t e h herr => ?_⟩
  obtain ⟨-, -, -, rfl⟩ := unmappedCycle_next.1 h
  rw [← herr, respond_resp]

theorem execReset_raisesCleanly : RaisesCleanly execReset := by
  refine .of_no_error (fun s r => ?_) fun s t e h => ?_
  · unfold execReset
    rw [bootCopy_respond]
    rfl
  · unfold execReset at h
    split at h
    · cases h
      simp
    · cases h

/-- CONSTRUCT that answers raised MalformedRomImage (44_board_wiring.md R216) or built the board. -/
theorem execConstruct_next_cases {rom0 rom1 : List Byte} {s t : State} (h : execConstruct rom0 rom1 s = .next t) :
    t = s.respond (.error .malformedRomImage) ∨ t = (s.built rom0 rom1).respond .done := by
  unfold execConstruct at h
  rw [if_pos tables_valid] at h
  split at h
  · split at h
    · cases h
      exact .inl rfl
    · split at h
      · cases h
        exact .inr rfl
      · cases h
  · cases h

theorem execConstruct_raisesCleanly (rom0 rom1 : List Byte) : RaisesCleanly (execConstruct rom0 rom1) := by
  refine ⟨fun _ _ => rfl, fun s t e h herr => ?_⟩
  rcases execConstruct_next_cases h with rfl | rfl
  · rw [← herr, respond_resp]
  · cases herr

/-- RESOLVE changes the response only, whatever it answers (40_decode.md R122). -/
theorem execResolve_next {addr : AddrIn} {size : Size} {s t : State} (h : execResolve addr size s = .next t) :
    t = s.respond t.resp := by
  unfold execResolve at h
  split at h
  · split at h <;> cases h <;> rfl
  · cases h

theorem execResolve_raisesCleanly (addr : AddrIn) (size : Size) : RaisesCleanly (execResolve addr size) :=
  ⟨fun _ _ => rfl, fun _ _ _ h herr => herr ▸ execResolve_next h⟩

/-! ## Every operation -/

theorem exec_storeRead_raisesCleanly (st : Store) (size : Size) (off : BitVec 21) :
    RaisesCleanly (exec (storeReadInstr st size off)) :=
  .of_eq (exec_storeRead · st size off) (busRead_raisesCleanly fun _ _ _ => by cases st <;> rfl)

theorem exec_storeWrite_raisesCleanly (st : Store) (off : BitVec 21) (d : WData) :
    RaisesCleanly (exec (storeWriteInstr st off d)) :=
  .of_eq (exec_storeWrite · st off d) (busWrite_raisesCleanly fun b l s r => storeWrite_respond s r st _ b l)

theorem exec_bankRead_raisesCleanly (b : Bank) (size : Size) (off : BitVec 13) :
    RaisesCleanly (exec (bankReadInstr b size off)) :=
  .of_eq (exec_bankRead · b size off) (busRead_raisesCleanly fun _ _ _ => by cases b <;> rfl)

theorem exec_bankWrite_raisesCleanly (b : Bank) (off : BitVec 13) (d : WData) :
    RaisesCleanly (exec (bankWriteInstr b off d)) :=
  .of_eq (exec_bankWrite · b off d) (busWrite_raisesCleanly fun _ _ _ _ => rfl)

/-- Every operation raises its errors as 60_exceptions.md R240 says. -/
theorem exec_raisesCleanly (i : Instr) : RaisesCleanly (exec i) := by
  cases i with
  | rdRam size off => exact exec_storeRead_raisesCleanly .ram size off
  | wrRam off d => exact exec_storeWrite_raisesCleanly .ram off d
  | rdPagemap size off => exact exec_storeRead_raisesCleanly .pagemap size off
  | wrPagemap off d => exact exec_storeWrite_raisesCleanly .pagemap off d
  | rdSegmap size off => exact exec_storeRead_raisesCleanly .segmap size off
  | wrSegmap off d => exact exec_storeWrite_raisesCleanly .segmap off d
  | rdRom0 size off => exact exec_bankRead_raisesCleanly .rom0 size off
  | wrRom0 off d => exact exec_bankWrite_raisesCleanly .rom0 off d
  | rdRom1 size off => exact exec_bankRead_raisesCleanly .rom1 size off
  | wrRom1 off d => exact exec_bankWrite_raisesCleanly .rom1 off d
  | rdSerial size off =>
    exact .of_eq (exec_rdSerial · size off) (busRead_raisesCleanly fun l s r => readSerial_respond s r off l)
  | wrSerial off d =>
    exact .of_eq (exec_wrSerial · off d) (busWrite_raisesCleanly fun b l s r => writeSerial_respond s r off b l)
  | rdTimer size off =>
    exact .of_eq (exec_rdTimer · size off) (busRead_raisesCleanly fun l s r => readTimer_respond s r off l)
  | wrTimer off d =>
    exact .of_eq (exec_wrTimer · off d) (busWrite_raisesCleanly fun _ _ s r => callTimer_respond s r _)
  | rdSwitch size off => exact .of_eq (exec_rdSwitch · size off) (busRead_raisesCleanly fun _ _ _ => rfl)
  | wrSwitch off d => exact .of_eq (exec_wrSwitch · off d) (busWrite_raisesCleanly fun _ _ _ _ => rfl)
  | rdUnmapped size a => exact .of_eq (exec_rdUnmapped · size a) (unmappedCycle_raisesCleanly size a)
  | wrUnmapped a d => exact .of_eq (exec_wrUnmapped · a d) (unmappedCycle_raisesCleanly d.size a)
  | setlineSerInt v =>
    exact .of_eq (exec_setlineSerInt · v) (lineOp_raisesCleanly fun s r => setSerInt_respond s r v)
  | setlineTmrOut1 v => exact .of_eq (exec_setlineTmrOut1 · v) (lineOp_raisesCleanly fun _ _ => rfl)
  | setlineTmrOut2 v =>
    exact .of_eq (exec_setlineTmrOut2 · v) (lineOp_raisesCleanly fun s r => setTmrOut2_respond s r v)
  | setlineTmrOut3 v =>
    exact .of_eq (exec_setlineTmrOut3 · v) (lineOp_raisesCleanly fun s r => setTmrOut3_respond s r v)
  | setlineTmrOut4 v =>
    exact .of_eq (exec_setlineTmrOut4 · v) (lineOp_raisesCleanly fun s r => setTmrOut4_respond s r v)
  | setlineTmrOut5 v =>
    exact .of_eq (exec_setlineTmrOut5 · v) (lineOp_raisesCleanly fun s r => setTmrOut5_respond s r v)
  | reset => exact execReset_raisesCleanly
  | construct rom0 rom1 => exact execConstruct_raisesCleanly rom0 rom1
  | resolve addr size => exact execResolve_raisesCleanly addr size

/-! ## The obligation -/

/-- Settles O51: the failed operation changed the response only, and no operation sees the response before it. -/
theorem errorsChangeNothing : Obligations.ErrorsChangeNothing := by
  intro i s t e hexec herr
  obtain rfl := (exec_raisesCleanly i).error_only s t e hexec herr
  exact ⟨rfl, fun j => (exec_raisesCleanly j).ignores_resp s _⟩

end Sys2Proof.Machine
end

section
/-! PROOFS. The windows and the encodings (30_encoding.md, 40_decode.md): the mask and match rows agree with the
arithmetic rule, the encoder's addresses fall in the first image of their window, and decoding undoes encoding. -/

namespace Sys2Proof.Machine

/-! ## Which window an address falls in -/

/-- Where the windows of a table exclude each other, the search answers a window exactly where it matches. -/
theorem resolveIn_some_iff {table : List Window} {a : Nat} {w : Window}
    (hapart : table.Pairwise (fun w v => windowMatches w a = true → ¬ windowMatches v a = true))
    (hw : w ∈ table) : (∃ off, resolveIn table a = some (w, off)) ↔ windowMatches w a = true := by
  have hfind : (∃ off, resolveIn table a = some (w, off)) ↔
      table.find? (fun v => windowMatches v a) = some w := by simp [resolveIn]
  rw [hfind]
  refine ⟨fun h => List.find?_some (p := fun v => windowMatches v a) h, fun hmatch => ?_⟩
  induction table with
  | nil => cases hw
  | cons v rest ih =>
    obtain ⟨hv, hrest⟩ := List.pairwise_cons.1 hapart
    rcases List.mem_cons.1 hw with rfl | hw
    · simp [hmatch]
    · have hvmatch : ¬ windowMatches v a = true := fun h => hv w hw h hmatch
      simpa [List.find?_cons, hvmatch] using ih hrest hw (by simp [resolveIn])

/-- RESOLVE answers the window that matches (40_decode.md R110). -/
theorem resolveAddr_some_iff {w : Window} (hw : w ∈ windowTable) (a : Addr) :
    (∃ off, resolveAddr a = some (w, off)) ↔ windowMatches w a.toNat = true :=
  resolveIn_some_iff (windowTable_apart a.toNat) hw

/-- The two ways to a window, by mask and match rows and by arithmetic, lead to the same one (30_encoding.md R90). -/
theorem decodeWindow_eq_resolveAddr (a : Addr) : decodeWindow a = (resolveAddr a).map (fun r => r.1.name) := by
  rw [decodeWindow_eq, resolveAddr_eq]
  split_ifs <;> rfl

theorem decodeWindow_of_matches {w : Window} (hw : w ∈ windowTable) {a : Addr}
    (h : windowMatches w a.toNat = true) : decodeWindow a = some w.name := by
  obtain ⟨off, hoff⟩ := (resolveAddr_some_iff hw a).2 h
  rw [decodeWindow_eq_resolveAddr, hoff]
  rfl

theorem decodeWindow_eq_none_iff (a : Addr) : decodeWindow a = none ↔ resolveAddr a = none := by
  rw [decodeWindow_eq_resolveAddr, Option.map_eq_none_iff]

/-- The row and the window at one place of their tables match the same addresses (30_encoding.md R89). -/
theorem row_hits_iff_windowMatches {p : Nat} {row : BusRow} {w : Window} (hp : p < 8)
    (hrow : busRows[p]? = some row) (hw : windowTable[p]? = some w) (a : Addr) :
    row.hits a = true ↔ windowMatches w a.toNat = true := by
  have ha := addr_lt a
  rw [busRows_eq] at hrow
  rw [windowTable_eq] at hw
  interval_cases p
  all_goals
    obtain rfl := Option.some.inj hrow
    obtain rfl := Option.some.inj hw
    rw [hits_iff, windowMatches_iff]
    first | rw [and_region] | rw [and_bank] | rw [and_serial]
    simp only [BitVec.reduceToNat]
    omega

/-- RESOLVE finds nothing at exactly the addresses of 20_memory.md R62. -/
theorem resolveAddr_eq_none_iff (a : Addr) : resolveAddr a = none ↔ isUnmappedAddr a = true := by
  have ha := addr_lt a
  rw [isUnmappedAddr_iff, resolveAddr_eq]
  split_ifs <;> simp only [false_iff, true_iff] <;> omega

/-! ## Periods and sizes are powers of two -/

/-- What 30_encoding.md R83 rests on: size and period are powers of two, and the base is a multiple of the
period. -/
theorem windowTable_powers {w : Window} (hw : w ∈ windowTable) :
    ∃ m n, n ≤ m ∧ w.period = 2 ^ m ∧ w.size = 2 ^ n ∧ w.period ∣ w.base := by
  have hpowers : ∀ w ∈ windowTable, ∃ m < 22, ∃ n < 22,
      n ≤ m ∧ w.period = 2 ^ m ∧ w.size = 2 ^ n ∧ w.period ∣ w.base := by
    rw [windowTable_eq]
    decide
  obtain ⟨m, -, n, -, h⟩ := hpowers w hw
  exact ⟨m, n, h⟩

/-- The mask of the bits from `n` to `m - 1` is 0 on a number exactly where its remainder is below `2 ^ n`. -/
theorem and_mask_eq_zero_iff {m n : Nat} (hnm : n ≤ m) (a : Nat) :
    a &&& (2 ^ m - 2 ^ n) = 0 ↔ a % 2 ^ m < 2 ^ n := by
  have hpow : 2 ^ m = 2 ^ n * 2 ^ (m - n) := by rw [← Nat.pow_add, Nat.add_sub_cancel' hnm]
  have hmask : 2 ^ m - 2 ^ n = (2 ^ (m - n) - 1) <<< n := by
    rw [Nat.shiftLeft_eq, Nat.sub_mul, hpow, Nat.mul_comm, Nat.one_mul]
  have hand : a &&& (2 ^ m - 2 ^ n) = (a / 2 ^ n % 2 ^ (m - n)) * 2 ^ n := by
    rw [← Nat.and_two_pow_sub_one_eq_mod, ← Nat.shiftRight_eq_div_pow, ← Nat.shiftLeft_eq, hmask]
    apply Nat.eq_of_testBit_eq
    intro i
    by_cases hi : n ≤ i <;> simp [Nat.testBit_shiftLeft, Nat.testBit_shiftRight, hi, Bool.and_comm]
  have hdiv : a / 2 ^ n % 2 ^ (m - n) = a % 2 ^ m / 2 ^ n := by
    rw [hpow, Nat.mod_mul_right_div_self]
  have hpos : 2 ^ n ≠ 0 := (Nat.two_pow_pos n).ne'
  rw [hand, hdiv, Nat.mul_eq_zero, or_iff_left hpos, Nat.div_eq_zero_iff, or_iff_right hpos]

/-- Inside the span the offset is the remainder of the address itself, the base being a multiple of the period. -/
theorem windowOffset_eq_mod {w : Window} {a : Nat} (hdvd : w.period ∣ w.base) (hbase : w.base ≤ a) :
    windowOffset w a = a % w.period := by
  obtain ⟨k, hk⟩ := hdvd
  unfold windowOffset
  obtain ⟨j, rfl⟩ := Nat.exists_eq_add_of_le hbase
  rw [Nat.add_sub_cancel_left, hk, Nat.mul_add_mod]

/-! ## The first image of a window -/

theorem windowTable_shapes {w : Window} (hw : w ∈ windowTable) :
    w.size ≤ w.period ∧ w.base + w.size ≤ w.last + 1 ∧ w.last < 2 ^ addrWidth ∧ w.size ∣ w.base := by
  have hshapes : ∀ w ∈ windowTable,
      w.size ≤ w.period ∧ w.base + w.size ≤ w.last + 1 ∧ w.last < 2 ^ addrWidth ∧ w.size ∣ w.base := by decide
  exact hshapes w hw

theorem windowMatches_first_image {w : Window} (hw : w ∈ windowTable) {k : Nat} (hk : k < w.size) :
    windowMatches w (w.base + k) = true := by
  obtain ⟨hperiod, hspan, -, -⟩ := windowTable_shapes hw
  rw [windowMatches_iff, Nat.add_sub_cancel_left, Nat.mod_eq_of_lt (by omega)]
  exact ⟨by omega, by omega, hk⟩

/-- The encoder's address, as a number, is the base plus the offset (30_encoding.md R82). -/
theorem mask24_encodeAddr_toNat {n base : Nat} (off : BitVec n) (hdvd : 2 ^ n ∣ base)
    (hle : base + 2 ^ n ≤ 2 ^ addrWidth) : (mask24 (encodeAddr base off)).toNat = base + off.toNat := by
  have hoff := off.isLt
  have hbase : base % 2 ^ addrInWidth = base := Nat.mod_eq_of_lt (by simp only [addrWidth, addrInWidth] at *; omega)
  have hoff' : off.toNat % 2 ^ addrInWidth = off.toNat :=
    Nat.mod_eq_of_lt (by simp only [addrWidth, addrInWidth] at *; omega)
  obtain ⟨k, rfl⟩ := hdvd
  rw [mask24_toNat, encodeAddr, BitVec.toNat_or, BitVec.toNat_ofNat, BitVec.toNat_setWidth, hbase, hoff',
    ← Nat.two_pow_add_eq_or_of_lt hoff]
  exact Nat.mod_eq_of_lt (by simp only [addrWidth] at hle; omega)

section
variable {w : Window} {n : Nat}

theorem encodeAddr_toNat (hw : w ∈ windowTable) (hsize : w.size = 2 ^ n) (off : BitVec n) :
    (mask24 (encodeAddr w.base off)).toNat = w.base + off.toNat := by
  obtain ⟨-, hspan, hlast, hdvd⟩ := windowTable_shapes hw
  exact mask24_encodeAddr_toNat off (hsize ▸ hdvd) (by omega)

/-- The encoder's address decodes to its window. -/
theorem decodeWindow_encodeAddr (hw : w ∈ windowTable) (hsize : w.size = 2 ^ n) (off : BitVec n) :
    decodeWindow (mask24 (encodeAddr w.base off)) = some w.name := by
  apply decodeWindow_of_matches hw
  rw [encodeAddr_toNat hw hsize]
  exact windowMatches_first_image hw (hsize ▸ off.isLt)

/-- The offset field of the encoder's address is the offset. -/
theorem extract_encodeAddr (hw : w ∈ windowTable) (hsize : w.size = 2 ^ n) (off : BitVec n) :
    (mask24 (encodeAddr w.base off)).extractLsb' 0 n = off := by
  obtain ⟨-, -, -, k, hk⟩ := windowTable_shapes hw
  apply BitVec.eq_of_toNat_eq
  rw [BitVec.extractLsb'_toNat, encodeAddr_toNat hw hsize, Nat.shiftRight_zero, hk, hsize, Nat.mul_add_mod,
    Nat.mod_eq_of_lt off.isLt]

end

/-- An unmapped cycle's address is its own encoding. -/
theorem mask24_encodeAddr_zero (a : Addr) : mask24 (encodeAddr 0 a) = a := by
  apply BitVec.eq_of_toNat_eq
  rw [mask24_encodeAddr_toNat a (Nat.dvd_zero _) (by simp), Nat.zero_add]

end Sys2Proof.Machine

namespace Sys2Proof

open Machine

/-! ## Records -/

/-- Bit 0 of an offset is bit 0 of the address. -/
@[simp] theorem extract_bit0 {n : Nat} (a : Addr) : (a.extractLsb' 0 (n + 1))[0] = a[0] := by
  simp [BitVec.getLsbD_eq_getElem]

/-- Bit 0 of an address is its parity. -/
theorem bit0_eq (a : Addr) : a[0] = decide (a.toNat % 2 = 1) := by
  rw [BitVec.getElem_eq_testBit_toNat, Nat.testBit_zero]

theorem bit0_eq_false_iff (a : Addr) : a[0] = false ↔ a.toNat % 2 = 0 := by
  rw [bit0_eq, decide_eq_false_iff_not]
  exact Nat.mod_two_ne_one

theorem decodeSize_bits (size : Size) : decodeSize size.bits = some size := by cases size <;> rfl

/-- The record of an aligned cycle carries an admitted size. -/
theorem admitSize_bits {size : Size} {a : Addr} (h : size.aligned a[0] = true) :
    admitSize size.bits a = .ok size := by
  unfold admitSize
  rw [decodeSize_bits]
  exact if_pos h

/-- That of a misaligned one is rejected. -/
theorem admitSize_bits_odd {size : Size} {a : Addr} (h : size.aligned a[0] = false) :
    admitSize size.bits a = .error (.oddWord a) := by
  unfold admitSize
  rw [decodeSize_bits]
  exact if_neg (h ▸ nofun)

/-- What the decoder admits is aligned (20_memory.md R56). -/
theorem aligned_of_admitSize {n : Nat} {a : Addr} {size : Size} (h : admitSize n a = .ok size) :
    size.aligned a[0] = true := by
  unfold admitSize at h
  split at h
  · cases h
  · split at h
    · cases h
      assumption
    · cases h

@[simp] theorem writeData_field (d : WData) : writeData d.size d.field = d := by
  cases d with
  | byte v =>
    have h : (v.setWidth 16).extractLsb' 0 8 = v := by
      apply BitVec.eq_of_toNat_eq
      have hv : v.toNat < 256 := v.isLt
      simp only [BitVec.extractLsb'_toNat, BitVec.toNat_setWidth, Nat.shiftRight_zero]
      omega
    exact congrArg WData.byte h
  | word v => rfl

/-- The decoder on the record of an aligned read, and of an aligned write. -/
theorem decode_read {size : Size} {addr : AddrIn} (h : size.aligned (mask24 addr)[0] = true) (data : BusWord) :
    decode (.bus .read size.bits addr data) = .ok (decodeRead size (mask24 addr)) := by
  rw [decode, admitSize_bits h]
  rfl

theorem decode_write {size : Size} {addr : AddrIn} (h : size.aligned (mask24 addr)[0] = true) (data : BusWord) :
    decode (.bus .write size.bits addr data) = .ok (decodeWrite (writeData size data) (mask24 addr)) := by
  rw [decode, admitSize_bits h]
  rfl

section
variable {w : Window} {n : Nat} {off : BitVec (n + 1)} {f : BitVec (n + 1) → Instr}

/-- A read of a window decodes back, once `decodeRead` is known to take that window's name to the operation `f`
of the offset field. -/
theorem decode_encodeRead {size : Size} (hw : w ∈ windowTable) (hsize : w.size = 2 ^ (n + 1))
    (haligned : size.aligned off[0] = true)
    (hrow : ∀ a : Addr, decodeWindow a = some w.name → decodeRead size a = f (a.extractLsb' 0 (n + 1))) :
    decode (encodeRead size (encodeAddr w.base off)) = .ok (f off) := by
  have hoff := extract_encodeAddr hw hsize off
  rw [← hoff, extract_bit0] at haligned
  rw [encodeRead, decode_read haligned, hrow _ (decodeWindow_encodeAddr hw hsize off), hoff]

theorem decode_encodeWrite {d : WData} (hw : w ∈ windowTable) (hsize : w.size = 2 ^ (n + 1))
    (haligned : d.size.aligned off[0] = true)
    (hrow : ∀ a : Addr, decodeWindow a = some w.name → decodeWrite d a = f (a.extractLsb' 0 (n + 1))) :
    decode (encodeWrite d (encodeAddr w.base off)) = .ok (f off) := by
  have hoff := extract_encodeAddr hw hsize off
  rw [← hoff, extract_bit0] at haligned
  rw [encodeWrite, decode_write haligned, writeData_field, hrow _ (decodeWindow_encodeAddr hw hsize off), hoff]

end

/-- A cycle at an unmapped address decodes back. -/
theorem decode_encode_rdUnmapped {size : Size} {a : Addr} (h : (Instr.rdUnmapped size a).wf = true) :
    decode (encode (.rdUnmapped size a)) = .ok (.rdUnmapped size a) := by
  obtain ⟨haligned, hnone⟩ := Bool.and_eq_true_iff.1 h
  have hwindow := (decodeWindow_eq_none_iff a).2 (Option.isNone_iff_eq_none.1 hnone)
  rw [encode, encodeRead, decode_read (by rwa [mask24_encodeAddr_zero]), mask24_encodeAddr_zero, decodeRead, hwindow]

theorem decode_encode_wrUnmapped {d : WData} {a : Addr} (h : (Instr.wrUnmapped a d).wf = true) :
    decode (encode (.wrUnmapped a d)) = .ok (.wrUnmapped a d) := by
  obtain ⟨haligned, hnone⟩ := Bool.and_eq_true_iff.1 h
  have hwindow := (decodeWindow_eq_none_iff a).2 (Option.isNone_iff_eq_none.1 hnone)
  rw [encode, encodeWrite, decode_write (by rwa [mask24_encodeAddr_zero]), mask24_encodeAddr_zero, writeData_field,
    decodeWrite, hwindow]

theorem decode_encode_resolve {addr : AddrIn} {size : Size} (h : (Instr.resolve addr size).wf = true) :
    decode (encode (.resolve addr size)) = .ok (.resolve addr size) := by
  have haligned : size.aligned (mask24 addr)[0] = true := by rwa [mask24_bit0]
  rw [encode, decode, admitSize_bits haligned]
  rfl

/-! ## What the decoder gives is well-formed -/

theorem decodeRead_wf {size : Size} {a : Addr} (h : size.aligned a[0] = true) :
    (decodeRead size a).wf = true := by
  unfold decodeRead
  split
  case h_9 hwindow =>
    rw [Instr.wf, h, (decodeWindow_eq_none_iff a).1 hwindow]
    rfl
  all_goals simpa only [Instr.wf, extract_bit0] using h

theorem decodeWrite_wf {d : WData} {a : Addr} (h : d.size.aligned a[0] = true) :
    (decodeWrite d a).wf = true := by
  unfold decodeWrite
  split
  case h_9 hwindow =>
    rw [Instr.wf, h, (decodeWindow_eq_none_iff a).1 hwindow]
    rfl
  all_goals simpa only [Instr.wf, extract_bit0] using h

theorem writeData_size (size : Size) (data : BusWord) : (writeData size data).size = size := by
  cases size <;> rfl

/-- A record's operation, where the decoder admits the record's size. -/
theorem map_admitSize_eq_ok {n : Nat} {a : Addr} {f : Size → Instr} {i : Instr}
    (h : (admitSize n a).map f = .ok i) : ∃ size, size.aligned a[0] = true ∧ i = f size := by
  cases hsize : admitSize n a with
  | error e => rw [hsize] at h; cases h
  | ok size =>
    rw [hsize] at h
    cases h
    exact ⟨size, aligned_of_admitSize hsize, rfl⟩

theorem decodeLine_wf {src : BitVec 3} {level : Bool} {i : Instr} (h : decodeLine src level = .ok i) :
    i.wf = true := by
  unfold decodeLine at h
  split_ifs at h <;> cases h <;> rfl

/-! ## The obligations -/

/-- Settles O1: an address of the encoder lies in the first image of its window, where the rows find that window
and the offset field is the offset; the other records carry their operands as they are. -/
theorem decodeOfEncodeIsIdentity : Obligations.DecodeOfEncodeIsIdentity := by
  intro i h
  cases i with
  | rdRam =>
    exact decode_encodeRead (w := ramWindow) (by decide) rfl h fun _ hw => by rw [decodeRead, hw]; rfl
  | wrRam _ d =>
    exact decode_encodeWrite (f := (.wrRam · d)) (w := ramWindow) (by decide) rfl h
      fun _ hw => by rw [decodeWrite, hw]; rfl
  | rdRom0 =>
    exact decode_encodeRead (w := rom0Window) (by decide) rfl h fun _ hw => by rw [decodeRead, hw]; rfl
  | wrRom0 _ d =>
    exact decode_encodeWrite (f := (.wrRom0 · d)) (w := rom0Window) (by decide) rfl h
      fun _ hw => by rw [decodeWrite, hw]; rfl
  | rdRom1 =>
    exact decode_encodeRead (w := rom1Window) (by decide) rfl h fun _ hw => by rw [decodeRead, hw]; rfl
  | wrRom1 _ d =>
    exact decode_encodeWrite (f := (.wrRom1 · d)) (w := rom1Window) (by decide) rfl h
      fun _ hw => by rw [decodeWrite, hw]; rfl
  | rdSerial =>
    exact decode_encodeRead (w := serialWindow) (by decide) rfl h fun _ hw => by rw [decodeRead, hw]; rfl
  | wrSerial _ d =>
    exact decode_encodeWrite (f := (.wrSerial · d)) (w := serialWindow) (by decide) rfl h
      fun _ hw => by rw [decodeWrite, hw]; rfl
  | rdTimer =>
    exact decode_encodeRead (w := timerWindow) (by decide) rfl h fun _ hw => by rw [decodeRead, hw]; rfl
  | wrTimer _ d =>
    exact decode_encodeWrite (f := (.wrTimer · d)) (w := timerWindow) (by decide) rfl h
      fun _ hw => by rw [decodeWrite, hw]; rfl
  | rdPagemap =>
    exact decode_encodeRead (w := pagemapWindow) (by decide) rfl h fun _ hw => by rw [decodeRead, hw]; rfl
  | wrPagemap _ d =>
    exact decode_encodeWrite (f := (.wrPagemap · d)) (w := pagemapWindow) (by decide) rfl h
      fun _ hw => by rw [decodeWrite, hw]; rfl
  | rdSegmap =>
    exact decode_encodeRead (w := segmapWindow) (by decide) rfl h fun _ hw => by rw [decodeRead, hw]; rfl
  | wrSegmap _ d =>
    exact decode_encodeWrite (f := (.wrSegmap · d)) (w := segmapWindow) (by decide) rfl h
      fun _ hw => by rw [decodeWrite, hw]; rfl
  | rdSwitch =>
    exact decode_encodeRead (w := switchWindow) (by decide) rfl h fun _ hw => by rw [decodeRead, hw]; rfl
  | wrSwitch _ d =>
    exact decode_encodeWrite (f := (.wrSwitch · d)) (w := switchWindow) (by decide) rfl h
      fun _ hw => by rw [decodeWrite, hw]; rfl
  | rdUnmapped => exact decode_encode_rdUnmapped h
  | wrUnmapped => exact decode_encode_wrUnmapped h
  | resolve => exact decode_encode_resolve h
  | setlineSerInt | setlineTmrOut1 | setlineTmrOut2 | setlineTmrOut3 | setlineTmrOut4 | setlineTmrOut5 => rfl
  | reset | construct => rfl

/-- Settles O2: what the decoder admits is aligned, an offset has the address's bit 0, and the row without a
window is reached exactly where RESOLVE finds nothing. -/
theorem decodedOperationsAreWellFormed : Obligations.DecodedOperationsAreWellFormed := by
  intro r i h hconstruct
  cases r with
  | bus rw n addr data =>
    cases rw with
    | read =>
      obtain ⟨size, haligned, rfl⟩ := map_admitSize_eq_ok h
      exact decodeRead_wf haligned
    | write =>
      obtain ⟨size, haligned, rfl⟩ := map_admitSize_eq_ok h
      exact decodeWrite_wf (by rwa [writeData_size])
  | line => exact decodeLine_wf h
  | reset => cases h; rfl
  | construct r0 r1 => cases h; exact absurd rfl (hconstruct r0 r1)
  | query addr n =>
    obtain ⟨size, haligned, rfl⟩ := map_admitSize_eq_ok h
    rwa [Instr.wf, ← mask24_bit0]

/-- Settles O4: row by row the masks and the arithmetic rule match the same addresses, and at most one window
does. -/
theorem busRowsAgreeWithResolve : Obligations.BusRowsAgreeWithResolve := by
  intro a
  refine ⟨decodeWindow_eq_resolveAddr a, fun p row w hp hrow hw => ?_⟩
  rw [resolveAddr_some_iff (List.mem_of_getElem? hw)]
  exact row_hits_iff_windowMatches hp hrow hw a

/-- Settles O5, from the powers of two of the window table. -/
theorem offsetAssembly : Obligations.OffsetAssembly := by
  intro w hw a
  obtain ⟨m, n, hnm, hperiod, hsize, hdvd⟩ := windowTable_powers hw
  refine ⟨fun h => ((windowMatches_iff w a).1 h).2.2, fun hspan => ?_, fun hspan => ?_⟩
  · have hmatch : windowMatches w a = true ↔ windowOffset w a < w.size := by
      rw [windowMatches_iff, ← and_assoc, and_iff_right hspan]
      rfl
    have hoffset := windowOffset_eq_mod hdvd hspan.1
    refine ⟨?_, hmatch, ?_⟩
    · rw [hoffset, hperiod, Nat.and_two_pow_sub_one_eq_mod]
    · rw [hmatch, hoffset, hperiod, hsize, and_mask_eq_zero_iff hnm]
  · exact Bool.not_eq_true _ ▸ mt windowMatches_span hspan

/-- Settles O6: the gaps of the serial window, which the model lists by remainder, lie one above each image. -/
theorem unmappedAddressesAreExactlyThoseListed : Obligations.UnmappedAddressesAreExactlyThoseListed := by
  intro a
  rw [resolveAddr_eq_none_iff, isUnmappedAddr_iff]
  have hgap : (0x600000 ≤ a.toNat ∧ a.toNat ≤ 0x7FFFFF ∧ 8 ≤ (a.toNat - 0x600000) % 0x20000) ↔
      ∃ k < 16, 0x600008 + k * 0x20000 ≤ a.toNat ∧ a.toNat ≤ 0x61FFFF + k * 0x20000 := by
    constructor
    · intro h
      exact ⟨(a.toNat - 0x600000) / 0x20000, by omega⟩
    · rintro ⟨k, h⟩
      omega
  rw [hgap]
  refine or_congr (by omega) (or_congr (by omega) Iff.rfl)

/-- Settles O8: every image of SERIAL, and of TIMER, decodes to the window's own operation at the remainder. -/
theorem imagesOfAWindowAreOneDevice : Obligations.ImagesOfAWindowAreOneDevice := by
  intro a b size d
  have hserial : ∀ c : Addr, 0x600000 ≤ c.toNat ∧ c.toNat ≤ 0x7FFFFF → c.toNat % 0x20000 < 8 →
      decodeWindow c = some .serial ∧ (c.extractLsb' 0 3).toNat = c.toNat % 0x20000 := by
    intro c hspan hoff
    refine ⟨decodeWindow_of_matches (w := serialWindow) (by decide) ?_, ?_⟩
    · rw [windowMatches_iff]
      simp only [serialWindow, serialBase, serialEnd, serialPeriod, serialSize_eq]
      omega
    · rw [BitVec.extractLsb'_toNat, Nat.shiftRight_zero]
      omega
  have htimer : ∀ c : Addr, 0x800000 ≤ c.toNat ∧ c.toNat ≤ 0x9FFFFF →
      decodeWindow c = some .timer ∧ (c.extractLsb' 0 2).toNat = c.toNat % 4 := by
    intro c hspan
    refine ⟨decodeWindow_of_matches (w := timerWindow) (by decide) ?_, ?_⟩
    · rw [windowMatches_iff]
      simp only [timerWindow, timerBase, timerEnd, timerPeriod, timerSize_eq]
      omega
    · rw [BitVec.extractLsb'_toNat, Nat.shiftRight_zero]
  constructor
  · intro ha hb hab hlt
    obtain ⟨hwa, hoa⟩ := hserial a ha hlt
    obtain ⟨hwb, hob⟩ := hserial b hb (hab ▸ hlt)
    have hoff : b.extractLsb' 0 3 = a.extractLsb' 0 3 := BitVec.eq_of_toNat_eq (by rw [hoa, hob, hab])
    exact ⟨a.extractLsb' 0 3, hoa, by simp only [decodeRead, decodeWrite, hwa, hwb, hoff, and_self]⟩
  · intro ha hb hab
    obtain ⟨hwa, hoa⟩ := htimer a ha
    obtain ⟨hwb, hob⟩ := htimer b hb
    have hoff : b.extractLsb' 0 2 = a.extractLsb' 0 2 := BitVec.eq_of_toNat_eq (by rw [hoa, hob, hab])
    exact ⟨a.extractLsb' 0 2, hoa, by simp only [decodeRead, decodeWrite, hwa, hwb, hoff, and_self]⟩

/-- Settles O9, by running the decoder on the seven words. -/
theorem sampleWordsDecode : Obligations.SampleWordsDecode := by
  unfold Obligations.SampleWordsDecode
  decide

end Sys2Proof
end

section
/-! PROOFS. What an operation can do: one inversion of `exec`, and below it the changes that an operation is made
of. The frames of the whole machine follow from them (trace, lifecycle, ROM images, CpuReset, register accesses). -/

namespace Sys2Proof.Machine

/-! ## The outcome of each operation -/

/-- The next state of each operation that answers one: an operation that only answers, or what its handler did
before the answer. -/
inductive Effect (s : State) : Instr → State → Prop
  /-- Reads of storage, of the ROM banks and of the switch register, dropped writes, SETLINE TMR_OUT1, RESOLVE,
  errors. -/
  | answer {i : Instr} {r : Response} (hresp : r ≠ .error .invalidWireConfiguration)
      (hlines : i.mayMoveLines = false) (haccess : i.accessCount = 0) (hreset : i ≠ .reset) :
      Effect s i (s.respond r)
  | store (st : Store) (off : BitVec 21) (d : WData) (hphase : s.phase = .running)
      (haligned : d.size.aligned off[0] = true) :
      Effect s (storeWriteInstr st off d)
        ((writeStore st (wordOffset off) (busWord d off[0]) (lanes d.size off[0]) s).respond .done)
  | rdSerial (size : Size) (off : BitVec 3) (b : BusWord) (hphase : s.phase = .running) :
      Effect s (.rdSerial size off)
        ((readSerial off (lanes size off[0]) s).2.respond (laneResponse size off[0] b))
  | wrSerial (off : BitVec 3) (d : WData) (hphase : s.phase = .running) :
      Effect s (.wrSerial off d) ((writeSerial off (busWord d off[0]) (lanes d.size off[0]) s).respond .done)
  | rdTimer (size : Size) (off : BitVec 2) (b : BusWord) (hphase : s.phase = .running) :
      Effect s (.rdTimer size off)
        ((s.callTimer (.timerRead (timerReg off) (lanes size off[0]))).respond (laneResponse size off[0] b))
  | wrTimer (off : BitVec 2) (d : WData) (hphase : s.phase = .running) :
      Effect s (.wrTimer off d)
        ((s.callTimer (.timerWrite (timerReg off) (busWord d off[0]) (lanes d.size off[0]))).respond .done)
  | setSerInt (v : Bool) (hphase : s.phase ≠ .unbuilt) :
      Effect s (.setlineSerInt v) ((s.setSerInt v).respond .done)
  | setTmrOut2 (v : Bool) (hphase : s.phase ≠ .unbuilt) :
      Effect s (.setlineTmrOut2 v) ((s.setTmrOut2 v).respond .done)
  | setTmrOut3 (v : Bool) (hphase : s.phase ≠ .unbuilt) :
      Effect s (.setlineTmrOut3 v) ((s.setTmrOut3 v).respond .done)
  | setTmrOut4 (v : Bool) (hphase : s.phase ≠ .unbuilt) :
      Effect s (.setlineTmrOut4 v) ((s.setTmrOut4 v).respond .done)
  | setTmrOut5 (v : Bool) (hphase : s.phase ≠ .unbuilt) :
      Effect s (.setlineTmrOut5 v) ((s.setTmrOut5 v).respond .done)
  | reset (hphase : s.phase ≠ .unbuilt) :
      Effect s .reset ({ s.bootCopy.emit .cpuReset with phase := .running }.respond .done)
  | construct (rom0 rom1 : List Byte) (hphase : s.phase = .unbuilt) (h0 : rom0.length = romBankSize)
      (h1 : rom1.length = romBankSize) :
      Effect s (.construct rom0 rom1) ((s.built rom0 rom1).respond .done)

section
variable {s t : State}

/-- A bus read whose handler changes no state only answers. -/
theorem busRead_effect {i : Instr} {size : Size} {odd : Bool} {handler : BusWord → State → BusWord × State}
    (h : busRead size odd handler s = .next t) (hpure : ∀ l, (handler l s).2 = s)
    (hlines : i.mayMoveLines = false) (haccess : i.accessCount = 0) (hreset : i ≠ .reset) : Effect s i t := by
  obtain ⟨-, -, rfl⟩ := busRead_next.1 h
  rw [hpure]
  exact .answer (laneResponse_ne_error _ _ _ _) hlines haccess hreset

/-- So does a bus write whose handler changes no state. -/
theorem busWrite_effect {i : Instr} {d : WData} {odd : Bool} {handler : BusWord → BusWord → State → State}
    (h : busWrite d odd handler s = .next t) (hpure : ∀ b l, handler b l s = s)
    (hlines : i.mayMoveLines = false) (haccess : i.accessCount = 0) (hreset : i ≠ .reset) : Effect s i t := by
  obtain ⟨-, -, rfl⟩ := busWrite_next.1 h
  rw [hpure]
  exact .answer nofun hlines haccess hreset

theorem unmappedCycle_effect {i : Instr} {size : Size} {a : Addr} (h : unmappedCycle size a s = .next t)
    (hlines : i.mayMoveLines = false) (haccess : i.accessCount = 0) (hreset : i ≠ .reset) : Effect s i t := by
  obtain ⟨-, -, -, rfl⟩ := unmappedCycle_next.1 h
  exact .answer nofun hlines haccess hreset

theorem storeWrite_effect (st : Store) {off : BitVec 21} {d : WData}
    (h : exec (storeWriteInstr st off d) s = .next t) : Effect s (storeWriteInstr st off d) t := by
  rw [exec_storeWrite] at h
  obtain ⟨hphase, haligned, rfl⟩ := busWrite_next.1 h
  exact .store st off d hphase haligned

theorem reset_effect (h : execReset s = .next t) : Effect s .reset t := by
  unfold execReset at h
  split at h
  case isTrue hadmits =>
    cases h
    exact .reset ((admitsLine_iff s).1 hadmits)
  case isFalse => cases h

theorem construct_effect {rom0 rom1 : List Byte} (h : execConstruct rom0 rom1 s = .next t) :
    Effect s (.construct rom0 rom1) t := by
  unfold execConstruct at h
  rw [if_pos tables_valid] at h
  split at h
  case isFalse => cases h
  case isTrue hphase =>
    split at h
    case isTrue =>
      cases h
      exact .answer nofun rfl rfl nofun
    case isFalse =>
      split at h
      case isFalse => cases h
      case isTrue hwhole =>
        cases h
        exact .construct rom0 rom1 hphase hwhole.1 hwhole.2

theorem resolve_effect {addr : AddrIn} {size : Size} (h : execResolve addr size s = .next t) :
    Effect s (.resolve addr size) t := by
  unfold execResolve at h
  split at h
  · split at h <;> cases h <;> exact .answer nofun rfl rfl nofun
  · cases h

/-- Everything an operation that answers can have done. -/
theorem exec_effect {i : Instr} (h : exec i s = .next t) : Effect s i t := by
  cases i with
  | rdRam => exact busRead_effect h (fun _ => rfl) rfl rfl nofun
  | rdRom0 => exact busRead_effect h (fun _ => rfl) rfl rfl nofun
  | rdRom1 => exact busRead_effect h (fun _ => rfl) rfl rfl nofun
  | rdPagemap => exact busRead_effect h (fun _ => rfl) rfl rfl nofun
  | rdSegmap => exact busRead_effect h (fun _ => rfl) rfl rfl nofun
  | rdSwitch => exact busRead_effect h (fun _ => rfl) rfl rfl nofun
  | wrRom0 => exact busWrite_effect h (fun _ _ => rfl) rfl rfl nofun
  | wrRom1 => exact busWrite_effect h (fun _ _ => rfl) rfl rfl nofun
  | wrSwitch => exact busWrite_effect h (fun _ _ => rfl) rfl rfl nofun
  | rdUnmapped => exact unmappedCycle_effect h rfl rfl nofun
  | wrUnmapped => exact unmappedCycle_effect h rfl rfl nofun
  | wrRam => exact storeWrite_effect .ram h
  | wrPagemap => exact storeWrite_effect .pagemap h
  | wrSegmap => exact storeWrite_effect .segmap h
  | rdSerial size off =>
    obtain ⟨hphase, -, rfl⟩ := busRead_next.1 h
    exact .rdSerial size off _ hphase
  | wrSerial off d =>
    obtain ⟨hphase, -, rfl⟩ := busWrite_next.1 h
    exact .wrSerial off d hphase
  | rdTimer size off =>
    obtain ⟨hphase, -, rfl⟩ := busRead_next.1 h
    exact .rdTimer size off _ hphase
  | wrTimer off d =>
    obtain ⟨hphase, -, rfl⟩ := busWrite_next.1 h
    exact .wrTimer off d hphase
  | setlineSerInt v =>
    rw [exec_setlineSerInt, lineOp_next] at h
    obtain ⟨hphase, rfl⟩ := h
    exact .setSerInt v hphase
  | setlineTmrOut1 v =>
    rw [exec_setlineTmrOut1, lineOp_next] at h
    obtain ⟨-, rfl⟩ := h
    exact .answer nofun rfl rfl nofun
  | setlineTmrOut2 v =>
    rw [exec_setlineTmrOut2, lineOp_next] at h
    obtain ⟨hphase, rfl⟩ := h
    exact .setTmrOut2 v hphase
  | setlineTmrOut3 v =>
    rw [exec_setlineTmrOut3, lineOp_next] at h
    obtain ⟨hphase, rfl⟩ := h
    exact .setTmrOut3 v hphase
  | setlineTmrOut4 v =>
    rw [exec_setlineTmrOut4, lineOp_next] at h
    obtain ⟨hphase, rfl⟩ := h
    exact .setTmrOut4 v hphase
  | setlineTmrOut5 v =>
    rw [exec_setlineTmrOut5, lineOp_next] at h
    obtain ⟨hphase, rfl⟩ := h
    exact .setTmrOut5 v hphase
  | reset => exact reset_effect h
  | construct => exact construct_effect h
  | resolve => exact resolve_effect h

end

/-! ## Line changes -/

/-- One line takes a new level: its record, what it drives and one event; a clock edge is also delivered to the
serial chip (42_interrupt_router.md R185, 44_board_wiring.md R223). -/
inductive LineMove : State → State → Prop
  | serInt (s : State) (v : Bool) (hnew : s.serint = !v) :
      LineMove s { s with serint := v, irq5 := v, out := s.out ++ [.cpuIrq irqSerial v] }
  | tmrOut2 (s : State) (v : Bool) (hnew : s.tout2 = !v) :
      LineMove s { s with tout2 := v, irq6 := v, out := s.out ++ [.cpuIrq irqTimer2 v] }
  | tmrOut3 (s : State) (v : Bool) (hnew : s.tout3 = !v) :
      LineMove s { s with tout3 := v, irq7 := v, out := s.out ++ [.cpuIrq irqTimer3 v] }
  | tmrOut4 (s : State) (v : Bool) (hnew : s.tout4 = !v) :
      LineMove s (State.askSerial { s with tout4 := v, out := s.out ++ [.serialClk .A v] } (.serialClk .A v))
  | tmrOut5 (s : State) (v : Bool) (hnew : s.tout5 = !v) :
      LineMove s (State.askSerial { s with tout5 := v, out := s.out ++ [.serialClk .B v] } (.serialClk .B v))

/-- Line changes in turn. -/
abbrev LineMoves : State → State → Prop := Relation.ReflTransGen LineMove

/-- SETLINEs made in turn, each a run of line changes. -/
theorem foldl_lineMoves {α : Type} {f : State → α → State} (hf : ∀ s x, LineMoves s (f s x)) (xs : List α)
    (s : State) : LineMoves s (xs.foldl f s) := by
  induction xs generalizing s with
  | nil => exact .refl
  | cons x xs ih => exact (hf s x).trans (ih (f s x))

section
variable (s : State)

theorem setSerInt_lineMoves (v : Bool) : LineMoves s (s.setSerInt v) := by
  rcases setSerInt_cases s v with ⟨-, h⟩ | ⟨hnew, h⟩ <;> rw [h]
  exact .single (.serInt s v hnew)

/-- After the call itself, the serial chip's answer only moves its line (20_memory.md R68). -/
theorem callSerial_lineMoves (c : DevCall) : LineMoves (s.askSerial c) (s.callSerial c) :=
  foldl_lineMoves setSerInt_lineMoves _ _

theorem setTmrOut2_lineMoves (v : Bool) : LineMoves s (s.setTmrOut2 v) := by
  rcases setTmrOut2_cases s v with ⟨-, h⟩ | ⟨hnew, h⟩ <;> rw [h]
  exact .single (.tmrOut2 s v hnew)

theorem setTmrOut3_lineMoves (v : Bool) : LineMoves s (s.setTmrOut3 v) := by
  rcases setTmrOut3_cases s v with ⟨-, h⟩ | ⟨hnew, h⟩ <;> rw [h]
  exact .single (.tmrOut3 s v hnew)

theorem setTmrOut4_lineMoves (v : Bool) : LineMoves s (s.setTmrOut4 v) := by
  rcases setTmrOut4_cases s v with ⟨-, h⟩ | ⟨hnew, h⟩ <;> rw [h]
  exact .head (.tmrOut4 s v hnew) (callSerial_lineMoves _ _)

theorem setTmrOut5_lineMoves (v : Bool) : LineMoves s (s.setTmrOut5 v) := by
  rcases setTmrOut5_cases s v with ⟨-, h⟩ | ⟨hnew, h⟩ <;> rw [h]
  exact .head (.tmrOut5 s v hnew) (callSerial_lineMoves _ _)

theorem setTimerOut_lineMoves (ch : TimerOut) (v : Bool) : LineMoves s (s.setTimerOut ch v) := by
  cases ch with
  | out1 => exact .refl
  | out2 => exact setTmrOut2_lineMoves s v
  | out3 => exact setTmrOut3_lineMoves s v
  | out4 => exact setTmrOut4_lineMoves s v
  | out5 => exact setTmrOut5_lineMoves s v

theorem callTimer_lineMoves (c : DevCall) : LineMoves (s.askTimer c) (s.callTimer c) :=
  foldl_lineMoves (fun t (x : TimerOut × Bool) => setTimerOut_lineMoves t x.1 x.2) _ _

end

/-! ## The changes an operation is made of -/

/-- One change of an operation on a constructed board, apart from RESET's signal. -/
inductive Move : State → State → Prop
  | respond (s : State) (r : Response) : Move s (s.respond r)
  | drawn (s : State) : Move s s.drawn
  | setCell (s : State) (st : Store) (i : Nat) (v : Byte) (hi : i < storeSize st) : Move s (s.setCell st i v)
  | askSerial (s : State) (c : DevCall) (hc : c.isAccess = true) : Move s (s.askSerial c)
  | askTimer (s : State) (c : DevCall) (hc : c.isAccess = true) : Move s (s.askTimer c)
  | line {s t : State} (h : LineMove s t) : Move s t

/-- Changes in turn. -/
abbrev Moves : State → State → Prop := Relation.ReflTransGen Move

theorem LineMoves.moves {s t : State} (h : LineMoves s t) : Moves s t :=
  Relation.ReflTransGen.mono (fun _ _ => Move.line) _ _ h

section
variable (s : State)

theorem callSerial_moves {c : DevCall} (hc : c.isAccess = true) : Moves s (s.callSerial c) :=
  .head (.askSerial s c hc) (callSerial_lineMoves s c).moves

theorem callTimer_moves {c : DevCall} (hc : c.isAccess = true) : Moves s (s.callTimer c) :=
  .head (.askTimer s c hc) (callTimer_lineMoves s c).moves

theorem readSerial_moves (off : BitVec serialOffWidth) (l : BusWord) : Moves s (readSerial off l s).2 := by
  have hchip : Moves s (serialByte off l s).2 := by
    unfold serialByte
    split
    · exact callSerial_moves s rfl
    · exact .single (.drawn s)
  exact hchip.tail (.drawn _)

theorem writeSerial_moves (off : BitVec serialOffWidth) (b l : BusWord) : Moves s (writeSerial off b l s) := by
  unfold writeSerial
  split
  · exact callSerial_moves s rfl
  · exact .refl

/-- The three writable arrays have as many cells as an offset can name. -/
theorem storeSize_eq (st : Store) : storeSize st = 2 ^ 21 := by cases st <;> rfl

@[simp] theorem wdata_size_byte (v : Byte) : (WData.byte v).size = .byte := rfl
@[simp] theorem wdata_size_word (v : BusWord) : (WData.word v).size = .word := rfl

/-- An aligned storage write stays inside its array: a word's offset is even, so the next one exists. -/
theorem writeStore_moves (st : Store) (off : BitVec 21) (d : WData) (haligned : d.size.aligned off[0] = true) :
    Moves s (writeStore st (wordOffset off) (busWord d off[0]) (lanes d.size off[0]) s) := by
  have hoff : off.toNat < storeSize st := storeSize_eq st ▸ off.isLt
  cases d with
  | byte v =>
    rw [wdata_size_byte, writeStore_byte]
    exact .single (.setCell s st _ v hoff)
  | word v =>
    have heven : off[0] = false := by simpa [Size.aligned] using haligned
    have hnext : off.toNat + 1 < storeSize st := by
      have hwo := wordOffset_even heven
      rw [storeSize_eq] at hoff ⊢
      unfold wordOffset at hwo
      omega
    rw [wdata_size_word, writeStore_word st off v s heven]
    exact .tail (.single (.setCell s st _ _ hoff)) (.setCell _ st _ _ hnext)

theorem bootCopy_moves : Moves s s.bootCopy := by
  have hcopy : ∀ (l : List Nat) (t : State), (∀ i ∈ l, i < storeSize .ram) →
      Moves t (l.foldl (fun u i => u.setCell .ram i (s.romCell .rom0 i)) t) := by
    intro l
    induction l with
    | nil => exact fun t _ => .refl
    | cons i l ih =>
      intro t hl
      exact .head (.setCell t .ram i _ (hl i List.mem_cons_self))
        (ih _ fun k hk => hl k (List.mem_cons_of_mem _ hk))
  refine hcopy (List.range bootCopyLen) s fun i hi => ?_
  rw [List.mem_range] at hi
  rw [storeSize_eq]
  exact hi.trans (by decide)

end

/-- An operation that answers only answered, or made changes on a constructed board, or was a RESET or a
CONSTRUCT. -/
theorem exec_moves {i : Instr} {s t : State} (h : exec i s = .next t) :
    (i ≠ .reset ∧ ∃ r, t = s.respond r) ∨
    (i ≠ .reset ∧ s.phase ≠ .unbuilt ∧ Moves s t) ∨
    (i = .reset ∧ s.phase ≠ .unbuilt ∧
      ∃ u, Moves s u ∧ t = { u.emit .cpuReset with phase := .running }.respond .done) ∨
    (i ≠ .reset ∧ s.phase = .unbuilt ∧ ∃ rom0 rom1, rom0.length = romBankSize ∧ rom1.length = romBankSize ∧
      t = (s.built rom0 rom1).respond .done) := by
  have hrunning : s.phase = .running → s.phase ≠ .unbuilt := fun h => h ▸ nofun
  have hanswered : ∀ {u : State} (r : Response), Moves s u → Moves s (u.respond r) :=
    fun r hu => hu.tail (.respond _ r)
  cases exec_effect h with
  | answer _ _ _ hreset => exact .inl ⟨hreset, _, rfl⟩
  | store st off d hp haligned =>
    exact .inr (.inl ⟨by cases st <;> nofun, hrunning hp, hanswered _ (writeStore_moves s st off d haligned)⟩)
  | rdSerial size off _ hp => exact .inr (.inl ⟨nofun, hrunning hp, hanswered _ (readSerial_moves s off _)⟩)
  | wrSerial off d hp => exact .inr (.inl ⟨nofun, hrunning hp, hanswered _ (writeSerial_moves s off _ _)⟩)
  | rdTimer size off _ hp => exact .inr (.inl ⟨nofun, hrunning hp, hanswered _ (callTimer_moves s rfl)⟩)
  | wrTimer off d hp => exact .inr (.inl ⟨nofun, hrunning hp, hanswered _ (callTimer_moves s rfl)⟩)
  | setSerInt v hp => exact .inr (.inl ⟨nofun, hp, hanswered _ (setSerInt_lineMoves s v).moves⟩)
  | setTmrOut2 v hp => exact .inr (.inl ⟨nofun, hp, hanswered _ (setTmrOut2_lineMoves s v).moves⟩)
  | setTmrOut3 v hp => exact .inr (.inl ⟨nofun, hp, hanswered _ (setTmrOut3_lineMoves s v).moves⟩)
  | setTmrOut4 v hp => exact .inr (.inl ⟨nofun, hp, hanswered _ (setTmrOut4_lineMoves s v).moves⟩)
  | setTmrOut5 v hp => exact .inr (.inl ⟨nofun, hp, hanswered _ (setTmrOut5_lineMoves s v).moves⟩)
  | reset hp => exact .inr (.inr (.inl ⟨rfl, hp, _, bootCopy_moves s, rfl⟩))
  | construct rom0 rom1 hp h0 h1 => exact .inr (.inr (.inr ⟨nofun, hp, rom0, rom1, h0, h1, rfl⟩))

/-! ## What the changes leave alone -/

/-- The ROM images, the phase and the operations to come are kept, and the trace grows by line events only. -/
structure KeepsBoard (s t : State) : Prop where
  rom0 : t.rom0 = s.rom0
  rom1 : t.rom1 = s.rom1
  phase : t.phase = s.phase
  inbox : t.inbox = s.inbox
  out : ∃ es, t.out = s.out ++ es ∧ ∀ e ∈ es, e.legal = true ∧ e.drives ≠ none

theorem KeepsBoard.of_out_eq {s t : State} (rom0 : t.rom0 = s.rom0) (rom1 : t.rom1 = s.rom1)
    (phase : t.phase = s.phase) (inbox : t.inbox = s.inbox) (out : t.out = s.out) : KeepsBoard s t :=
  ⟨rom0, rom1, phase, inbox, [], by rw [out, List.append_nil], by simp⟩

theorem KeepsBoard.refl (s : State) : KeepsBoard s s := .of_out_eq rfl rfl rfl rfl rfl

theorem KeepsBoard.trans {s t u : State} (hst : KeepsBoard s t) (htu : KeepsBoard t u) : KeepsBoard s u := by
  obtain ⟨es, hes, hesLines⟩ := hst.out
  obtain ⟨fs, hfs, hfsLines⟩ := htu.out
  refine ⟨htu.rom0.trans hst.rom0, htu.rom1.trans hst.rom1, htu.phase.trans hst.phase,
    htu.inbox.trans hst.inbox, es ++ fs, by rw [hfs, hes, List.append_assoc], fun e he => ?_⟩
  exact (List.mem_append.1 he).elim (hesLines e) (hfsLines e)

section
variable {s t : State}

theorem LineMove.keepsBoard (h : LineMove s t) : KeepsBoard s t := by
  cases h
  all_goals exact ⟨rfl, rfl, rfl, rfl, [_], rfl, by simp [OutEvent.legal, OutEvent.drives]⟩

theorem Move.keepsBoard (h : Move s t) : KeepsBoard s t := by
  cases h with
  | respond | drawn | askSerial | askTimer => exact .of_out_eq rfl rfl rfl rfl rfl
  | setCell st i v =>
    rw [setCell_eq]
    exact .of_out_eq (setMem_rom0 ..) (setMem_rom1 ..) (setMem_phase ..) (setMem_inbox ..) (setMem_out ..)
  | line h => exact h.keepsBoard

theorem Moves.keepsBoard (h : Moves s t) : KeepsBoard s t := by
  induction h with
  | refl => exact .refl s
  | tail _ hmove ih => exact ih.trans hmove.keepsBoard

/-- A line change keeps the arrays, the timer chip's answers and the number of register accesses: a clock edge is
no access (41_window_access.md R158). -/
theorem LineMove.keepsArrays (h : LineMove s t) :
    t.mem = s.mem ∧ t.timerAnswers = s.timerAnswers ∧ t.accesses = s.accesses := by
  cases h
  all_goals
    refine ⟨funext fun st => by cases st <;> rfl, rfl, ?_⟩
    simp [State.accesses, DevCall.isAccess]

theorem LineMoves.keepsArrays (h : LineMoves s t) :
    t.mem = s.mem ∧ t.timerAnswers = s.timerAnswers ∧ t.accesses = s.accesses := by
  induction h with
  | refl => exact ⟨rfl, rfl, rfl⟩
  | tail _ hmove ih =>
    obtain ⟨hmem, hanswers, haccesses⟩ := hmove.keepsArrays
    exact ⟨hmem.trans ih.1, hanswers.trans ih.2.1, haccesses.trans ih.2.2⟩

/-- On a constructed board an operation keeps the ROM images and a step onward in the lifecycle is to running. -/
theorem exec_keeps_banks (i : Instr) (h : exec i s = .next t) (hphase : s.phase ≠ .unbuilt) :
    t.rom0 = s.rom0 ∧ t.rom1 = s.rom1 ∧ (t.phase = s.phase ∨ t.phase = .running) := by
  rcases exec_moves h with ⟨-, r, rfl⟩ | ⟨-, -, hmoves⟩ | ⟨-, -, u, hmoves, rfl⟩ | ⟨-, hunbuilt, -⟩
  · exact ⟨rfl, rfl, .inl rfl⟩
  · exact ⟨hmoves.keepsBoard.rom0, hmoves.keepsBoard.rom1, .inl hmoves.keepsBoard.phase⟩
  · exact ⟨hmoves.keepsBoard.rom0, hmoves.keepsBoard.rom1, .inr rfl⟩
  · exact absurd hunbuilt hphase

/-- How an operation extends the trace, CONSTRUCT on an empty one included. -/
theorem exec_out {i : Instr} (h : exec i s = .next t) (hempty : s.phase = .unbuilt → s.out = []) :
    ∃ es, t.out = s.out ++ es ∧ es.count .cpuReset = if i = .reset then 1 else 0 := by
  have hquiet : ∀ {es : List OutEvent}, (∀ e ∈ es, e.legal = true ∧ e.drives ≠ none) →
      es.count .cpuReset = 0 := fun hes => List.count_eq_zero.2 fun hmem => (hes _ hmem).2 rfl
  rcases exec_moves h with ⟨hi, r, rfl⟩ | ⟨hi, -, hmoves⟩ | ⟨rfl, -, u, hmoves, rfl⟩ |
    ⟨hi, hunbuilt, rom0, rom1, -, -, rfl⟩
  · exact ⟨[], by simp, by simp [hi]⟩
  · obtain ⟨es, hout, hes⟩ := hmoves.keepsBoard.out
    exact ⟨es, hout, by rw [hquiet hes, if_neg hi]⟩
  · obtain ⟨es, hout, hes⟩ := hmoves.keepsBoard.out
    refine ⟨es ++ [.cpuReset], by simp [hout], ?_⟩
    rw [List.count_append, hquiet hes, if_pos rfl]
    rfl
  · refine ⟨pinEvents, ?_, by rw [if_neg hi]; decide⟩
    rw [hempty hunbuilt]
    rfl

end

/-! ## Register accesses -/

section
variable (s : State)

theorem accesses_askSerial {c : DevCall} (hc : c.isAccess = true) : (s.askSerial c).accesses = s.accesses + 1 := by
  simp [State.accesses, hc]

theorem accesses_callSerial {c : DevCall} (hc : c.isAccess = true) :
    (s.callSerial c).accesses = s.accesses + 1 := by
  rw [(callSerial_lineMoves s c).keepsArrays.2.2, accesses_askSerial s hc]

theorem accesses_callTimer {c : DevCall} (hc : c.isAccess = true) :
    (s.callTimer c).accesses = s.accesses + 1 := by
  rw [(callTimer_lineMoves s c).keepsArrays.2.2]
  simp [State.accesses, hc]

/-- A SERIAL cycle accesses the chip exactly where it takes in the upper lane (41_window_access.md R143). -/
theorem accesses_readSerial (off : BitVec serialOffWidth) (l : BusWord) :
    (readSerial off l s).2.accesses = s.accesses + if onUpper l then 1 else 0 := by
  have hchip : (serialByte off l s).2.accesses = s.accesses + if onUpper l then 1 else 0 := by
    unfold serialByte
    rw [takesIn_serial]
    split
    · exact accesses_callSerial s rfl
    · rfl
  exact hchip

theorem accesses_writeSerial (off : BitVec serialOffWidth) (b l : BusWord) :
    (writeSerial off b l s).accesses = s.accesses + if onUpper l then 1 else 0 := by
  unfold writeSerial
  rw [takesIn_serial]
  split
  · exact accesses_callSerial s rfl
  · rfl

theorem accesses_storeWrite (st : Store) (wo : Nat) (b l : BusWord) :
    (s.storeWrite st wo b l).accesses = s.accesses := by
  rw [storeWrite_eq, State.accesses, setMem_calls, State.accesses]

theorem accesses_bootCopy : s.bootCopy.accesses = s.accesses := by
  rw [bootCopy_eq, State.accesses, setMem_calls, State.accesses]

end

/-- The pin calls of CONSTRUCT are no accesses. -/
theorem accesses_built (s : State) (rom0 rom1 : List Byte) : (s.built rom0 rom1).accesses = s.accesses := by
  have hpins : pinCalls.countP DevCall.isAccess = 0 := by decide
  exact (List.countP_append ..).trans (by rw [hpins]; rfl)

theorem accessCount_rdSerial (size : Size) (off : BitVec 3) :
    (Instr.rdSerial size off).accessCount = if onUpper (lanes size off[0]) then 1 else 0 := by
  cases size with
  | word => simp [Instr.accessCount]
  | byte => cases h : off[0] <;> simp [Instr.accessCount, h]

theorem accessCount_wrSerial (off : BitVec 3) (d : WData) :
    (Instr.wrSerial off d).accessCount = if onUpper (lanes d.size off[0]) then 1 else 0 := by
  cases d with
  | word => simp [Instr.accessCount]
  | byte => cases h : off[0] <;> simp [Instr.accessCount, h]

/-! ## The obligations -/

/-- Settles O34: the two SERIAL cycles access the chip by lane, the two TIMER cycles once; line changes, storage
and pins are no accesses. -/
theorem registerAccessesAreCounted : Obligations.RegisterAccessesAreCounted := by
  intro i s t h
  cases exec_effect h with
  | answer _ _ haccess => rw [haccess]; rfl
  | store st off d => exact (accesses_storeWrite ..).trans (by cases st <;> rfl)
  | rdSerial size off => exact (accesses_readSerial ..).trans (by rw [accessCount_rdSerial])
  | wrSerial off d => exact (accesses_writeSerial ..).trans (by rw [accessCount_wrSerial])
  | rdTimer => exact accesses_callTimer s rfl
  | wrTimer => exact accesses_callTimer s rfl
  | setSerInt v => exact (setSerInt_lineMoves s v).keepsArrays.2.2
  | setTmrOut2 v => exact (setTmrOut2_lineMoves s v).keepsArrays.2.2
  | setTmrOut3 v => exact (setTmrOut3_lineMoves s v).keepsArrays.2.2
  | setTmrOut4 v => exact (setTmrOut4_lineMoves s v).keepsArrays.2.2
  | setTmrOut5 v => exact (setTmrOut5_lineMoves s v).keepsArrays.2.2
  | reset => exact accesses_bootCopy s
  | construct rom0 rom1 => exact accesses_built s rom0 rom1

/-- Settles O46, from how an operation extends the trace. -/
theorem cpuResetsAreCounted : Obligations.CpuResetsAreCounted := by
  intro i s t hinv h
  obtain ⟨es, hout, hcount⟩ := exec_out h hinv.unbuiltTrace
  rw [hout, List.count_append, hcount]

/-- Settles O49: the operations that answer an error answer another one. -/
theorem wireErrorIsNeverRaised : Obligations.WireErrorIsNeverRaised := by
  intro i s t h
  cases exec_effect h with
  | answer hresp => exact hresp
  | rdSerial | rdTimer => exact laneResponse_ne_error _ _ _ _
  | store | wrSerial | wrTimer | setSerInt | setTmrOut2 | setTmrOut3 | setTmrOut4 | setTmrOut5 | reset
  | construct => nofun

/-- Settles O55: taking the record leaves the trace, and the operation extends it. -/
theorem traceOnlyGrows : Obligations.TraceOnlyGrows := by
  intro s t hinv hstep
  rcases step_next_cases hstep with rfl | ⟨_, rest, _, -, -, hexec⟩
  · exact List.prefix_rfl
  · obtain ⟨es, hout, -⟩ := exec_out hexec hinv.unbuiltTrace
    exact ⟨es, hout.symm⟩

/-- Settles O56. -/
theorem romImagesNeverChange : Obligations.RomImagesNeverChange := by
  intro s t hphase hstep
  rcases step_next_cases hstep with rfl | ⟨_, rest, i, -, -, hexec⟩
  · exact ⟨rfl, rfl⟩
  · obtain ⟨hrom0, hrom1, -⟩ := exec_keeps_banks i hexec hphase
    exact ⟨hrom0, hrom1⟩

/-- Settles O57: on a constructed board the phase stays or becomes running. -/
theorem lifecycleOnlyGoesForward : Obligations.LifecycleOnlyGoesForward := by
  intro s t hstep
  rcases step_next_cases hstep with rfl | ⟨_, rest, i, -, -, hexec⟩
  · exact ⟨id, id⟩
  · have hforward : s.phase ≠ .unbuilt → t.phase = s.phase ∨ t.phase = .running :=
      fun hphase => (exec_keeps_banks i hexec hphase).2.2
    refine ⟨fun hrunning => ?_, fun hphase => ?_⟩
    · exact (hforward (hrunning ▸ nofun)).elim (·.trans hrunning) id
    · exact (hforward hphase).elim (fun h => h ▸ hphase) (fun h => h ▸ nofun)

end Sys2Proof.Machine
end

section
/-! PROOFS. The invariant (10_state.md, 42_interrupt_router.md): it holds at reset and at power-on, and every change
of an operation keeps it. -/

namespace Sys2Proof.Machine

/-! ## Traces -/

section
variable {dest : LineDest} {d v : Bool} {e : OutEvent} {k : LineDest}

theorem lastDriven_cons (es : List OutEvent) (hd : e.drives = some (k, v)) :
    lastDriven dest d (e :: es) = if k = dest then lastDriven dest v es else lastDriven dest d es := by
  simp only [lastDriven, hd]

theorem lastDriven_cons_silent (es : List OutEvent) (hd : e.drives = none) :
    lastDriven dest d (e :: es) = lastDriven dest d es := by
  simp only [lastDriven, hd]

theorem onlyEdges_cons (es : List OutEvent) (hd : e.drives = some (k, v)) :
    onlyEdges dest d (e :: es) = if k = dest then v != d && onlyEdges dest v es else onlyEdges dest d es := by
  simp only [onlyEdges, hd]

theorem onlyEdges_cons_silent (es : List OutEvent) (hd : e.drives = none) :
    onlyEdges dest d (e :: es) = onlyEdges dest d es := by
  simp only [onlyEdges, hd]

/-- The level after a trace is the level before its second part. -/
theorem lastDriven_append (es fs : List OutEvent) :
    lastDriven dest d (es ++ fs) = lastDriven dest (lastDriven dest d es) fs := by
  induction es generalizing d with
  | nil => rfl
  | cons e es ih =>
    rw [List.cons_append]
    cases hd : e.drives with
    | none => rw [lastDriven_cons_silent _ hd, lastDriven_cons_silent _ hd, ih]
    | some x =>
      rw [lastDriven_cons _ hd, lastDriven_cons _ hd]
      split <;> exact ih

theorem onlyEdges_append (es fs : List OutEvent) :
    onlyEdges dest d (es ++ fs) = (onlyEdges dest d es && onlyEdges dest (lastDriven dest d es) fs) := by
  induction es generalizing d with
  | nil => rfl
  | cons e es ih =>
    rw [List.cons_append]
    cases hd : e.drives with
    | none => rw [onlyEdges_cons_silent _ hd, onlyEdges_cons_silent _ hd, lastDriven_cons_silent _ hd, ih]
    | some x =>
      rw [onlyEdges_cons _ hd, onlyEdges_cons _ hd, lastDriven_cons _ hd]
      split
      · rw [ih, Bool.and_assoc]
      · exact ih

theorem lastDriven_silent {es : List OutEvent} (hes : ∀ e ∈ es, e.drives = none) : lastDriven dest d es = d := by
  induction es with
  | nil => rfl
  | cons e es ih =>
    rw [lastDriven_cons_silent es (hes e List.mem_cons_self), ih fun f hf => hes f (List.mem_cons_of_mem _ hf)]

theorem onlyEdges_silent {es : List OutEvent} (hes : ∀ e ∈ es, e.drives = none) : onlyEdges dest d es = true := by
  induction es with
  | nil => rfl
  | cons e es ih =>
    rw [onlyEdges_cons_silent es (hes e List.mem_cons_self), ih fun f hf => hes f (List.mem_cons_of_mem _ hf)]

end

/-- The clauses of the invariant that speak of the phase and the trace alone. -/
structure TraceOk (p : Phase) (out : List OutEvent) : Prop where
  edges : ∀ dest, onlyEdges dest lineInit out = true
  legal : ∀ e ∈ out, e.legal = true
  unbuilt : p = .unbuilt → out = []
  built : p = .built → OutEvent.cpuReset ∉ out
  running : p = .running → OutEvent.cpuReset ∈ out

theorem State.Inv.traceOk {s : State} (h : s.Inv) : TraceOk s.phase s.out :=
  ⟨h.edges, h.legal, h.unbuiltTrace, h.builtTrace, h.runningTrace⟩

/-- A new level on an input keeps them (42_interrupt_router.md R185). -/
theorem TraceOk.drive {p : Phase} {out : List OutEvent} {e : OutEvent} {k : LineDest} {v : Bool}
    (h : TraceOk p out) (hphase : p ≠ .unbuilt) (hlegal : e.legal = true) (hd : e.drives = some (k, v))
    (hnew : lastDriven k lineInit out = !v) : TraceOk p (out ++ [e]) := by
  have hreset : e ≠ .cpuReset := by rintro rfl; cases hd
  refine ⟨fun dest => ?_, fun x hx => ?_, fun hp => absurd hp hphase, fun hp hmem => ?_, fun hp => ?_⟩
  · rw [onlyEdges_append, h.edges, onlyEdges_cons [] hd]
    split
    case isTrue hk =>
      rw [← hk, hnew]
      cases v <;> rfl
    case isFalse => rfl
  · rcases List.mem_append.1 hx with hx | hx
    · exact h.legal x hx
    · exact List.mem_singleton.1 hx ▸ hlegal
  · rcases List.mem_append.1 hmem with hmem | hmem
    · exact h.built hp hmem
    · exact hreset (List.mem_singleton.1 hmem).symm
  · exact List.mem_append_left _ (h.running hp)

/-- RESET's signal keeps them, since it makes the phase running. -/
theorem TraceOk.reset {p : Phase} {out : List OutEvent} (h : TraceOk p out) :
    TraceOk .running (out ++ [.cpuReset]) := by
  refine ⟨fun dest => ?_, fun x hx => ?_, nofun, nofun, fun _ => by simp⟩
  · rw [onlyEdges_append, h.edges]
    rfl
  · rcases List.mem_append.1 hx with hx | hx
    · exact h.legal x hx
    · exact List.mem_singleton.1 hx ▸ rfl

/-- The pin events drive no input of the router's (44_board_wiring.md R218). -/
theorem pinEvents_silent : ∀ e ∈ pinEvents, e.drives = none := by decide

theorem traceOk_pins : TraceOk .built pinEvents :=
  ⟨fun _ => onlyEdges_silent pinEvents_silent, by decide, nofun, fun _ => by decide, nofun⟩

/-! ## The changes keep the invariant -/

section
variable {s t : State}

theorem State.Inv.arrays (h : s.Inv) (st : Store) : Memory.wf (storeSize st) (s.mem st) := by
  cases st
  · exact h.ramForm
  · exact h.pagemapForm
  · exact h.segmapForm

/-- The level on the input that a line drives (10_state.md R29, R31). -/
def State.shown (s : State) : LineDest → Bool
  | .irq l => s.irqOut l
  | .serialClk .A => s.tout4
  | .serialClk .B => s.tout5

/-- A change of one processor level, as `IrqOut` shows it. -/
theorem shown_eq_ite {l : Nat} {v : Bool} (hk : t.irqOut l = v) (hirq : ∀ m, m ≠ l → t.irqOut m = s.irqOut m)
    (hA : t.tout4 = s.tout4) (hB : t.tout5 = s.tout5) (dest : LineDest) :
    t.shown dest = if LineDest.irq l = dest then v else s.shown dest := by
  match dest with
  | .irq m =>
    by_cases hm : m = l
    · rw [hm, if_pos rfl]
      exact hk
    · rw [if_neg (by simpa using Ne.symm hm)]
      exact hirq m hm
  | .serialClk .A => exact hA
  | .serialClk .B => exact hB

/-- A line change as the trace has it: one event, which drives one input from its level to the other, and is
delivered where it goes to a chip. -/
theorem LineMove.event (h : LineMove s t) (hs : s.Inv) :
    ∃ e k v, e.drives = some (k, v) ∧ e.legal = true ∧ t.out = s.out ++ [e] ∧
      lastDriven k lineInit s.out = (!v) ∧ (∀ dest, t.shown dest = if k = dest then v else s.shown dest) ∧
      t.calls.filter (fun c => !c.isAccess) = s.calls.filter (fun c => !c.isAccess) ++ e.delivery.toList := by
  cases h with
  | serInt v hnew =>
    exact ⟨_, .irq irqSerial, v, rfl, rfl, rfl, hs.irq5Trace.symm.trans (hs.irq5Source.trans hnew),
      shown_eq_ite rfl (fun m hm => by simp [State.irqOut, hm]) rfl rfl, (List.append_nil _).symm⟩
  | tmrOut2 v hnew =>
    exact ⟨_, .irq irqTimer2, v, rfl, rfl, rfl, hs.irq6Trace.symm.trans (hs.irq6Source.trans hnew),
      shown_eq_ite rfl (fun m hm => by simp [State.irqOut, hm]) rfl rfl, (List.append_nil _).symm⟩
  | tmrOut3 v hnew =>
    exact ⟨_, .irq irqTimer3, v, rfl, rfl, rfl, hs.irq7Trace.symm.trans (hs.irq7Source.trans hnew),
      shown_eq_ite rfl (fun m hm => by simp [State.irqOut, hm]) rfl rfl, (List.append_nil _).symm⟩
  | tmrOut4 v hnew =>
    exact ⟨_, .serialClk .A, v, rfl, rfl, rfl, hs.clkATrace.symm.trans hnew,
      fun | .irq _ | .serialClk .A | .serialClk .B => rfl, List.filter_append ..⟩
  | tmrOut5 v hnew =>
    exact ⟨_, .serialClk .B, v, rfl, rfl, rfl, hs.clkBTrace.symm.trans hnew,
      fun | .irq _ | .serialClk .A | .serialClk .B => rfl, List.filter_append ..⟩

/-- A line change sets a wired level and its source together (10_state.md R30). -/
theorem LineMove.sources (h : LineMove s t) :
    (s.irq5 = s.serint → t.irq5 = t.serint) ∧ (s.irq6 = s.tout2 → t.irq6 = t.tout2) ∧
      (s.irq7 = s.tout3 → t.irq7 = t.tout3) := by
  cases h with
  | serInt => exact ⟨fun _ => rfl, id, id⟩
  | tmrOut2 => exact ⟨id, fun _ => rfl, id⟩
  | tmrOut3 => exact ⟨id, id, fun _ => rfl⟩
  | tmrOut4 | tmrOut5 => exact ⟨id, id, id⟩

theorem LineMove.inv (h : LineMove s t) (hs : s.Inv) (hphase : s.phase ≠ .unbuilt) : t.Inv := by
  obtain ⟨e, k, v, hd, hlegal, hout, hnew, hshown, hdelivered⟩ := h.event hs
  obtain ⟨h5, h6, h7⟩ := h.sources
  have hboard := h.keepsBoard
  have hform : ∀ st, Memory.wf (storeSize st) (t.mem st) := h.keepsArrays.1 ▸ hs.arrays
  have hok : TraceOk t.phase t.out := by
    rw [hboard.phase, hout]
    exact hs.traceOk.drive hphase hlegal hd hnew
  have htrace : ∀ dest, s.shown dest = lastDriven dest lineInit s.out →
      t.shown dest = lastDriven dest lineInit t.out := by
    intro dest hdest
    rw [hshown, hout, lastDriven_append, lastDriven_cons [] hd, hdest]
    rfl
  exact {
    ramForm := hform .ram, pagemapForm := hform .pagemap, segmapForm := hform .segmap
    banks := fun _ => by rw [hboard.rom0, hboard.rom1]; exact hs.banks hphase
    irq5Source := h5 hs.irq5Source, irq6Source := h6 hs.irq6Source, irq7Source := h7 hs.irq7Source
    irq5Trace := htrace (.irq irqSerial) hs.irq5Trace
    irq6Trace := htrace (.irq irqTimer2) hs.irq6Trace
    irq7Trace := htrace (.irq irqTimer3) hs.irq7Trace
    clkATrace := htrace (.serialClk .A) hs.clkATrace
    clkBTrace := htrace (.serialClk .B) hs.clkBTrace
    edges := hok.edges, legal := hok.legal
    delivered := by
      rw [hdelivered, hs.delivered, hout, List.filterMap_append]
      cases hdelivery : e.delivery <;> simp [hdelivery]
    unbuiltTrace := hok.unbuilt, builtTrace := hok.built, runningTrace := hok.running }

/-- A register access is no delivery of an event. -/
theorem delivered_access (h : s.Inv) {c : DevCall} (hc : c.isAccess = true) :
    (s.calls ++ [c]).filter (fun c => !c.isAccess) = s.out.filterMap OutEvent.delivery := by
  simp [hc, h.delivered]

/-- A cell write changes one array, and that one keeps its form. -/
theorem State.Inv.setCell (hs : s.Inv) (st : Store) {i : Nat} (hi : i < storeSize st) (v : Byte) :
    (s.setCell st i v).Inv := by
  have hform := setCell_wf hs.arrays hi v
  cases st <;>
    exact { hs with ramForm := hform .ram, pagemapForm := hform .pagemap, segmapForm := hform .segmap }

theorem Move.inv (h : Move s t) (hs : s.Inv) (hphase : s.phase ≠ .unbuilt) : t.Inv := by
  cases h with
  | respond | drawn => exact { hs with }
  | setCell st i v hi => exact hs.setCell st hi v
  | askSerial c hc => exact { hs with delivered := delivered_access hs hc }
  | askTimer c hc => exact { hs with delivered := delivered_access hs hc }
  | line h => exact h.inv hs hphase

theorem Moves.inv (h : Moves s t) (hs : s.Inv) (hphase : s.phase ≠ .unbuilt) : t.Inv := by
  induction h with
  | refl => exact hs
  | tail hmoves hmove ih => exact hmove.inv ih (Moves.keepsBoard hmoves |>.phase ▸ hphase)

/-- RESET's signal, on a constructed board. -/
theorem State.Inv.reset (hs : s.Inv) (hphase : s.phase ≠ .unbuilt) :
    ({ s.emit .cpuReset with phase := .running }.respond .done).Inv := by
  have hok := hs.traceOk.reset
  have hsilent : ∀ dest, lastDriven dest lineInit s.out = lastDriven dest lineInit (s.out ++ [.cpuReset]) :=
    fun _ => by rw [lastDriven_append, lastDriven_cons_silent [] rfl]; rfl
  exact { hs with
    banks := fun _ => hs.banks hphase
    irq5Trace := hs.irq5Trace.trans (hsilent _)
    irq6Trace := hs.irq6Trace.trans (hsilent _)
    irq7Trace := hs.irq7Trace.trans (hsilent _)
    clkATrace := hs.clkATrace.trans (hsilent _)
    clkBTrace := hs.clkBTrace.trans (hsilent _)
    edges := hok.edges, legal := hok.legal
    delivered := by simp [hs.delivered, OutEvent.delivery]
    unbuiltTrace := nofun, builtTrace := nofun, runningTrace := hok.running }

/-- CONSTRUCT of two whole banks: nothing was emitted before it, and the pins are delivered
(44_board_wiring.md R218). -/
theorem State.Inv.built (hs : s.Inv) (hphase : s.phase = .unbuilt) {rom0 rom1 : List Byte}
    (h0 : rom0.length = romBankSize) (h1 : rom1.length = romBankSize) :
    ((s.built rom0 rom1).respond .done).Inv := by
  have hdelivered : (s.calls ++ pinCalls).filter (fun c => !c.isAccess) =
      pinEvents.filterMap OutEvent.delivery := by
    rw [List.filter_append, hs.delivered, hs.unbuiltTrace hphase]
    decide
  have hlines : ∀ dest, lineInit = lastDriven dest lineInit pinEvents :=
    fun _ => (lastDriven_silent pinEvents_silent).symm
  exact {
    ramForm := empty_wf _, pagemapForm := empty_wf _, segmapForm := empty_wf _
    banks := fun _ => ⟨h0, h1⟩
    irq5Source := rfl, irq6Source := rfl, irq7Source := rfl
    irq5Trace := hlines _, irq6Trace := hlines _, irq7Trace := hlines _
    clkATrace := hlines _, clkBTrace := hlines _
    edges := traceOk_pins.edges, legal := traceOk_pins.legal
    delivered := hdelivered
    unbuiltTrace := nofun, builtTrace := traceOk_pins.built, runningTrace := nofun }

/-- Every operation keeps the invariant. -/
theorem exec_inv {i : Instr} (h : exec i s = .next t) (hs : s.Inv) : t.Inv := by
  rcases exec_moves h with ⟨-, r, rfl⟩ | ⟨-, hphase, hmoves⟩ | ⟨-, hphase, u, hmoves, rfl⟩ |
    ⟨-, hphase, rom0, rom1, h0, h1, rfl⟩
  · exact { hs with }
  · exact hmoves.inv hs hphase
  · exact (hmoves.inv hs hphase).reset (hmoves.keepsBoard.phase ▸ hphase)
  · exact hs.built hphase h0 h1

end

/-! ## The obligations -/

/-- Settles O54: taking the record is no part of the invariant, and the operation keeps it. -/
theorem everyStepKeepsTheInvariant : Obligations.EveryStepKeepsTheInvariant := by
  intro s t hs hstep
  rcases step_next_cases hstep with rfl | ⟨_, rest, _, -, -, hexec⟩
  · exact hs
  · exact exec_inv (s := { s with inbox := rest }) hexec { hs with }

/-- At power-on nothing has been written, driven or emitted. -/
theorem powerOn_inv : State.powerOn.Inv where
  ramForm := empty_wf _
  pagemapForm := empty_wf _
  segmapForm := empty_wf _
  banks h := absurd rfl h
  irq5Source := rfl
  irq6Source := rfl
  irq7Source := rfl
  irq5Trace := rfl
  irq6Trace := rfl
  irq7Trace := rfl
  clkATrace := rfl
  clkBTrace := rfl
  edges _ := rfl
  legal := nofun
  delivered := rfl
  unbuiltTrace _ := rfl
  builtTrace := nofun
  runningTrace := nofun

/-- CONSTRUCT and RESET lead from power-on to the state after reset (70_reset_and_hazards.md R272). -/
theorem powerOn_built_reset :
    ({ (State.powerOn.built Config.romBank0.toList Config.romBank1.toList |>.respond .done).bootCopy.emit
      .cpuReset with phase := .running }.respond .done) = State.reset := by
  rw [bootCopy_eq]
  rfl

/-- CONSTRUCT of two whole banks builds the board (44_board_wiring.md R215). -/
theorem exec_construct {s : State} {rom0 rom1 : List Byte} (hphase : s.phase = .unbuilt)
    (h0 : rom0.length = romBankSize) (h1 : rom1.length = romBankSize) :
    exec (.construct rom0 rom1) s = .next ((s.built rom0 rom1).respond .done) := by
  have hlong : ¬ rom0.length < bootCopyLen := by rw [h0]; decide
  simp only [exec, execConstruct]
  rw [if_pos hphase, if_neg hlong, if_pos ⟨h0, h1⟩, if_pos tables_valid]

theorem exec_construct_powerOn :
    exec (.construct Config.romBank0.toList Config.romBank1.toList) State.powerOn =
      .next ((State.powerOn.built Config.romBank0.toList Config.romBank1.toList).respond .done) :=
  exec_construct rfl romBank0_length romBank1_length

theorem exec_reset_powerOn_built :
    exec .reset ((State.powerOn.built Config.romBank0.toList Config.romBank1.toList).respond .done) =
      .next State.reset := by
  rw [exec_reset (show Phase.built ≠ .unbuilt by decide), powerOn_built_reset]

/-- Settles O59: CONSTRUCT's checks pass on the model's images, and RESET's copy fills the empty RAM with the first
bytes of bank 0. -/
theorem powerOnSequenceReachesReset : Obligations.PowerOnSequenceReachesReset :=
  ⟨_, exec_construct_powerOn, exec_reset_powerOn_built⟩

/-- Settles O53: power-on by its values, and the state after reset is reached from there by two operations that
keep the invariant. -/
theorem invariantHoldsAtReset : Obligations.InvariantHoldsAtReset :=
  ⟨exec_inv exec_reset_powerOn_built (exec_inv exec_construct_powerOn powerOn_inv), powerOn_inv⟩

end Sys2Proof.Machine
end

section
/-! PROOFS. The bus cycles of the storage windows, of the switch register and at unmapped addresses
(41_window_access.md sections 1 to 3 and 6 to 8), by operation and through the bus. -/

namespace Sys2Proof.Machine

/-! ## Reads and writes of storage -/

/-- A byte read of storage answers the byte at its own offset (20_memory.md R53). -/
theorem laneResponse_storeRead_byte {n : Nat} (m : Nat → Byte) (off : BitVec (n + 1)) :
    laneResponse .byte off[0] (storeRead m (wordOffset off)) = .byte (m off.toNat) := by
  cases h : off[0]
  · simp [laneResponse, storeRead, wordOffset_even h]
  · simp [laneResponse, storeRead, wordOffset_odd h]

/-- An aligned word read answers the byte at its offset above the next one. -/
theorem laneResponse_storeRead_word {n : Nat} (m : Nat → Byte) {off : BitVec (n + 1)} (h : off[0] = false) :
    laneResponse .word off[0] (storeRead m (wordOffset off)) = .word (m off.toNat ++ m (off.toNat + 1)) := by
  simp [laneResponse, storeRead, wordOffset_even h]

section
variable {s t : State} {st : Store} {off : BitVec 21}

theorem exec_storeRead_byte (st : Store) (off : BitVec 21) (hphase : s.phase = .running) :
    exec (storeReadInstr st .byte off) s = .next (s.respond (.byte (s.cell st off.toNat))) := by
  rw [exec_storeRead, busRead_next]
  exact ⟨hphase, rfl, congrArg s.respond (laneResponse_storeRead_byte (s.cell st) off).symm⟩

theorem exec_storeRead_word (st : Store) (hphase : s.phase = .running) (heven : off[0] = false) :
    exec (storeReadInstr st .word off) s =
      .next (s.respond (.word (s.cell st off.toNat ++ s.cell st (off.toNat + 1)))) := by
  rw [exec_storeRead, busRead_next]
  exact ⟨hphase, by simp [Size.aligned, heven],
    congrArg s.respond (laneResponse_storeRead_word (s.cell st) heven).symm⟩

theorem aligned_word {odd : Bool} : Size.word.aligned odd = true ↔ odd = false := by
  simp [Size.aligned]

/-- The cells of the array after an aligned write (41_window_access.md R139). -/
theorem writeStore_cell {d : WData} (haligned : d.size.aligned off[0] = true) (i : Nat) :
    (writeStore st (wordOffset off) (busWord d off[0]) (lanes d.size off[0]) s).cell st i =
      (storedByte d off.toNat i).getD (s.cell st i) := by
  cases d with
  | byte v =>
    rw [wdata_size_byte, writeStore_byte, cell_setCell]
    by_cases hi : i = off.toNat <;> simp [storedByte, hi]
  | word v =>
    rw [wdata_size_word, writeStore_word st off v s (aligned_word.1 haligned),
      cell_setCell, cell_setCell]
    by_cases hi : i = off.toNat
    · simp [storedByte, hi]
    · by_cases hnext : i = off.toNat + 1 <;> simp [storedByte, hi, hnext]

/-- What a storage write that completes has done: it was admitted and aligned, and the bytes of the data are
stored. -/
theorem exec_storeWrite_cells {d : WData} (h : exec (storeWriteInstr st off d) s = .next t) :
    t.phase = .running ∧ d.size.aligned off[0] = true ∧ t = (s.setMem st (t.mem st)).respond .done ∧
      ∀ i, t.cell st i = (storedByte d off.toNat i).getD (s.cell st i) := by
  rw [exec_storeWrite] at h
  obtain ⟨hphase, haligned, rfl⟩ := busWrite_next.1 h
  have hmem := storeWrite_eq s st (wordOffset off) (busWord d off[0]) (lanes d.size off[0])
  refine ⟨?_, haligned, ?_, fun i => ?_⟩
  · rw [respond_phase, writeStore, hmem, setMem_phase, hphase]
  · rw [mem_respond]
    exact congrArg (State.respond · .done) hmem
  · rw [cell_respond]
    exact writeStore_cell haligned i

/-- The written value reads back (95_test_vectors.md S2, S8). -/
theorem exec_storeRead_written {d : WData} (hphase : t.phase = .running) (haligned : d.size.aligned off[0] = true)
    (hcells : ∀ i b, storedByte d off.toNat i = some b → t.cell st i = b) :
    exec (storeReadInstr st d.size off) t = .next (t.respond d.readBack) := by
  cases d with
  | byte v => exact (exec_storeRead_byte st off hphase).trans (by rw [hcells _ v (if_pos rfl)]; rfl)
  | word v =>
    refine (exec_storeRead_word st hphase (aligned_word.1 haligned)).trans ?_
    have hupper : t.cell st off.toNat = upperByte v := hcells _ _ (if_pos rfl)
    have hlower : t.cell st (off.toNat + 1) = lowerByte v := hcells _ _ (by simp [storedByte])
    rw [hupper, hlower, append_bytes]
    rfl

end

/-! ## Storage through the bus -/

/-- The window of a writable array. -/
def storeName : Store → WindowName
  | .ram => .ram
  | .pagemap => .pagemap
  | .segmap => .segmap

/-- The eighth of the masked space that the window fills, counted from 0 (10_state.md R34). -/
def storeRegion : Store → Nat
  | .ram => 0
  | .pagemap => 5
  | .segmap => 6

theorem decodeWindow_eq_store_iff (st : Store) (a : Addr) :
    decodeWindow a = some (storeName st) ↔ a.toNat / 0x200000 = storeRegion st := by
  rw [decodeWindow_eq]
  cases st
  all_goals
    simp only [storeName, storeRegion]
    split_ifs <;> simp <;> omega

section
variable {s t : State} {st : Store} {addr : AddrIn}

theorem decodeRead_store (size : Size) {a : Addr} (h : decodeWindow a = some (storeName st)) :
    decodeRead size a = storeReadInstr st size (a.extractLsb' 0 21) := by
  unfold decodeRead
  rw [h]
  cases st <;> rfl

theorem decodeWrite_store (d : WData) {a : Addr} (h : decodeWindow a = some (storeName st)) :
    decodeWrite d a = storeWriteInstr st (a.extractLsb' 0 21) d := by
  unfold decodeWrite
  rw [h]
  cases st <;> rfl

theorem perform_storeRead {size : Size} (h : decodeWindow (mask24 addr) = some (storeName st))
    (haligned : size.aligned (mask24 addr)[0] = true) (data : BusWord) (s : State) :
    perform (.bus .read size.bits addr data) s =
      exec (storeReadInstr st size ((mask24 addr).extractLsb' 0 21)) s := by
  rw [perform, decode_read haligned, decodeRead_store size h]

theorem perform_storeWrite {size : Size} (h : decodeWindow (mask24 addr) = some (storeName st))
    (haligned : size.aligned (mask24 addr)[0] = true) (data : BusWord) (s : State) :
    perform (.bus .write size.bits addr data) s =
      exec (storeWriteInstr st ((mask24 addr).extractLsb' 0 21) (writeData size data)) s := by
  rw [perform, decode_write haligned, decodeWrite_store _ h]

/-- A write that completes was aligned. -/
theorem aligned_of_perform_write {size : Size} {data : BusWord}
    (h : perform (.bus .write size.bits addr data) s = .next t) : size.aligned (mask24 addr)[0] = true := by
  cases haligned : size.aligned (mask24 addr)[0] with
  | true => rfl
  | false => simp only [perform, decode, admitSize_bits_odd haligned, Except.map, reduceCtorEq] at h

/-- A byte read through the bus at a masked address in a storage window. -/
theorem perform_storeRead_byte {i : Nat} (haddr : (mask24 addr).toNat = storeRegion st * 0x200000 + i)
    (hi : i < 0x200000) (hphase : t.phase = .running) (data : BusWord) :
    perform (.bus .read 8 addr data) t = .next (t.respond (.byte (t.cell st i))) := by
  have hwindow := (decodeWindow_eq_store_iff st (mask24 addr)).2 (by omega)
  have hoff : ((mask24 addr).extractLsb' 0 21).toNat = i := by
    rw [BitVec.extractLsb'_toNat, Nat.shiftRight_zero]
    omega
  have hread := perform_storeRead (size := .byte) hwindow rfl data t
  rw [exec_storeRead_byte st _ hphase, hoff] at hread
  exact hread

/-- A word read through the bus at an even one. -/
theorem perform_storeRead_word {i : Nat} (haddr : (mask24 addr).toNat = storeRegion st * 0x200000 + i)
    (hi : i < 0x200000) (heven : (mask24 addr)[0] = false) (hphase : t.phase = .running) (data : BusWord) :
    perform (.bus .read 16 addr data) t = .next (t.respond (.word (t.cell st i ++ t.cell st (i + 1)))) := by
  have hwindow := (decodeWindow_eq_store_iff st (mask24 addr)).2 (by omega)
  have hoff : ((mask24 addr).extractLsb' 0 21).toNat = i := by
    rw [BitVec.extractLsb'_toNat, Nat.shiftRight_zero]
    omega
  have hread := perform_storeRead (size := .word) hwindow (aligned_word.2 heven) data t
  rw [exec_storeRead_word st hphase (by rwa [extract_bit0]), hoff] at hread
  exact hread

/-- A word write through the bus that completes stores the two bytes, upper one first, and keeps the others. -/
theorem perform_storeWrite_word {i : Nat} {v : BusWord} (haddr : (mask24 addr).toNat = storeRegion st * 0x200000 + i)
    (hi : i < 0x200000) (h : perform (.bus .write 16 addr v) s = .next t) :
    (mask24 addr)[0] = false ∧ t.phase = .running ∧ t.resp = .done ∧
      ∀ k, t.cell st k = (storedByte (.word v) i k).getD (s.cell st k) := by
  have hwindow := (decodeWindow_eq_store_iff st (mask24 addr)).2 (by omega)
  have hoff : ((mask24 addr).extractLsb' 0 21).toNat = i := by
    rw [BitVec.extractLsb'_toNat, Nat.shiftRight_zero]
    omega
  have haligned := aligned_of_perform_write (size := .word) h
  obtain ⟨hphase, -, ht, hcells⟩ :=
    exec_storeWrite_cells ((perform_storeWrite (size := .word) hwindow haligned v s).symm.trans h)
  exact ⟨aligned_word.1 haligned, hphase, by rw [ht, respond_resp], hoff ▸ hcells⟩

/-- The two bytes of a word, where a word has been written. -/
theorem storedByte_word (v : BusWord) (i : Nat) :
    storedByte (.word v) i i = some (upperByte v) ∧ storedByte (.word v) i (i + 1) = some (lowerByte v) := by
  simp [storedByte]

/-- An even masked address is followed by the next one without a carry out of the mask. -/
theorem mask24_succ (heven : (mask24 addr)[0] = false) : (mask24 (addr + 1)).toNat = (mask24 addr).toNat + 1 := by
  rw [bit0_eq_false_iff, mask24_toNat] at heven
  rw [mask24_toNat, mask24_toNat, BitVec.toNat_add]
  simp only [addrInWidth, BitVec.reduceToNat]
  omega

end

/-! ## The ROM banks, the switch register, unmapped addresses -/

@[simp] theorem dropWrite_eq (b l : BusWord) (s : State) : dropWrite b l s = s := rfl

theorem exec_bankRead_byte {s : State} (b : Bank) (off : BitVec 13) (hphase : s.phase = .running) :
    exec (bankReadInstr b .byte off) s = .next (s.respond (.byte (s.romCell b off.toNat))) := by
  rw [exec_bankRead, busRead_next]
  exact ⟨hphase, rfl, congrArg s.respond (laneResponse_storeRead_byte (s.romCell b) off).symm⟩

theorem exec_bankRead_word {s : State} (b : Bank) {off : BitVec 13} (hphase : s.phase = .running)
    (heven : off[0] = false) :
    exec (bankReadInstr b .word off) s =
      .next (s.respond (.word (s.romCell b off.toNat ++ s.romCell b (off.toNat + 1)))) := by
  rw [exec_bankRead, busRead_next]
  exact ⟨hphase, aligned_word.2 heven,
    congrArg s.respond (laneResponse_storeRead_word (s.romCell b) heven).symm⟩

/-- A switch read answers its lanes of the constant. -/
theorem exec_rdSwitch_aligned {s : State} {size : Size} {off : BitVec 21} (hphase : s.phase = .running)
    (haligned : size.aligned off[0] = true) :
    exec (.rdSwitch size off) s = .next (s.respond (laneResponse size off[0] switchValue)) := by
  rw [exec_rdSwitch, busRead_next]
  exact ⟨hphase, haligned, rfl⟩

/-- An aligned unmapped cycle on a running board raises the error. -/
theorem unmappedCycle_raises {s : State} {size : Size} {a : Addr} (hphase : s.phase = .running)
    (haligned : size.aligned a[0] = true) (hunmapped : isUnmappedAddr a = true) :
    unmappedCycle size a s = .next (s.respond (.error (.unmappedAccess a))) :=
  unmappedCycle_next.2 ⟨hphase, haligned, (resolveAddr_eq_none_iff a).2 hunmapped, rfl⟩

/-- A cycle falls to the catch-all row exactly at the unmapped addresses (30_encoding.md R89). -/
theorem decodeRead_unmapped_iff (size : Size) (a : Addr) :
    decodeRead size a = .rdUnmapped size a ↔ isUnmappedAddr a = true := by
  rw [← resolveAddr_eq_none_iff, ← decodeWindow_eq_none_iff]
  constructor
  · intro h
    unfold decodeRead at h
    split at h
    case h_9 hnone => exact hnone
    all_goals cases h
  · intro h
    rw [decodeRead, h]

theorem decodeWrite_unmapped_iff (d : WData) (a : Addr) :
    decodeWrite d a = .wrUnmapped a d ↔ isUnmappedAddr a = true := by
  rw [← resolveAddr_eq_none_iff, ← decodeWindow_eq_none_iff]
  constructor
  · intro h
    unfold decodeWrite at h
    split at h
    case h_9 hnone => exact hnone
    all_goals cases h
  · intro h
    rw [decodeWrite, h]

/-! ## The way through the constructors and the pseudocode's -/

/-- The window that RESOLVE answers is one of the table, and the offset is the offset field of the address. -/
theorem resolveAddr_some {a : Addr} {w : Window} {off : Nat} (h : resolveAddr a = some (w, off)) :
    w ∈ windowTable ∧ decodeWindow a = some w.name ∧ ∀ n, w.size = 2 ^ n → (a.extractLsb' 0 n).toNat = off := by
  have hw : w ∈ windowTable := by
    obtain ⟨v, hfind, hv⟩ := Option.map_eq_some_iff.1 h
    cases hv
    exact List.mem_of_find?_eq_some hfind
  have hmatch := (resolveAddr_some_iff hw a).1 ⟨off, h⟩
  refine ⟨hw, decodeWindow_of_matches hw hmatch, fun n hn => ?_⟩
  have hoff : off = windowOffset w a.toNat := by
    obtain ⟨v, -, hv⟩ := Option.map_eq_some_iff.1 h
    cases hv
    rfl
  have hlt : windowOffset w a.toNat < w.size := ((windowMatches_iff w a.toNat).1 hmatch).2.2
  obtain ⟨m, n', hnm, hperiod, hsize, hdvd⟩ := windowTable_powers hw
  have hnn : n' = n := Nat.pow_right_injective (Nat.le_refl 2) (hsize.symm.trans hn)
  rw [windowOffset_eq_mod hdvd (windowMatches_span hmatch).1, hperiod] at hoff hlt
  have hmod := Nat.mod_mod_of_dvd a.toNat (Nat.pow_dvd_pow 2 (hnn ▸ hnm))
  rw [BitVec.extractLsb'_toNat, Nat.shiftRight_zero, hoff, ← hmod]
  exact Nat.mod_eq_of_lt (hn ▸ hlt)

/-- The register number does not see bit 0, which `wo` has cleared (30_encoding.md R84). -/
theorem serialReg_wordOffset : ∀ off : BitVec 3, serialReg (BitVec.ofNat 3 (wordOffset off)) = serialReg off := by
  decide

theorem timerReg_wordOffset : ∀ off : BitVec 2, timerReg (BitVec.ofNat 2 (wordOffset off)) = timerReg off := by
  decide

theorem readSerial_wordOffset (off : BitVec 3) :
    readSerial (BitVec.ofNat serialOffWidth (wordOffset off)) = readSerial off := by
  funext l s
  simp only [readSerial, serialByte]
  rw [serialReg_wordOffset]

theorem writeSerial_wordOffset (off : BitVec 3) :
    writeSerial (BitVec.ofNat serialOffWidth (wordOffset off)) = writeSerial off := by
  funext b l s
  simp only [writeSerial]
  rw [serialReg_wordOffset]

theorem readTimer_wordOffset (off : BitVec 2) :
    readTimer (BitVec.ofNat timerOffWidth (wordOffset off)) = readTimer off := by
  funext l s
  simp only [readTimer]
  rw [timerReg_wordOffset]

theorem writeTimer_wordOffset (off : BitVec 2) :
    writeTimer (BitVec.ofNat timerOffWidth (wordOffset off)) = writeTimer off := by
  funext b l s
  simp only [writeTimer]
  rw [timerReg_wordOffset]

section
variable {a : Addr} {w : Window} {off : Nat}

/-- A cycle's alignment can be read off its offset or off its address. -/
theorem busRead_bit0 {n : Nat} {size : Size} {s : State} {f g : BusWord → State → BusWord × State} (h : f = g) :
    busRead size (a.extractLsb' 0 (n + 1))[0] f s = busRead size a[0] g s := by rw [extract_bit0, h]

theorem busWrite_bit0 {n : Nat} {d : WData} {s : State} {f g : BusWord → BusWord → State → State} (h : f = g) :
    busWrite d (a.extractLsb' 0 (n + 1))[0] f s = busWrite d a[0] g s := by rw [extract_bit0, h]

/-- The operation that the decoder gives a read is the cycle with the handler of RESOLVE's window. -/
theorem exec_decodeRead (h : resolveAddr a = some (w, off)) (size : Size) (s : State) :
    exec (decodeRead size a) s = busRead size a[0] (windowRead w.name (off / 2 * 2)) s := by
  obtain ⟨hw, hwindow, hoff⟩ := resolveAddr_some h
  have hwo : ∀ n, w.size = 2 ^ n → off / 2 * 2 = wordOffset (a.extractLsb' 0 n) :=
    fun n hn => by rw [wordOffset, hoff n hn]
  unfold decodeRead
  rw [hwindow]
  simp only [windowTable, List.mem_cons, List.not_mem_nil, or_false] at hw
  rcases hw with rfl | rfl | rfl | rfl | rfl | rfl | rfl | rfl
  · rw [hwo 21 rfl]; exact busRead_bit0 (n := 20) rfl
  · rw [hwo 13 rfl]; exact busRead_bit0 (n := 12) rfl
  · rw [hwo 13 rfl]; exact busRead_bit0 (n := 12) rfl
  · rw [hwo 3 rfl]; exact busRead_bit0 (n := 2) (readSerial_wordOffset _).symm
  · rw [hwo 2 rfl]; exact busRead_bit0 (n := 1) (readTimer_wordOffset _).symm
  · rw [hwo 21 rfl]; exact busRead_bit0 (n := 20) rfl
  · rw [hwo 21 rfl]; exact busRead_bit0 (n := 20) rfl
  · exact busRead_bit0 (n := 20) rfl

theorem exec_decodeWrite (h : resolveAddr a = some (w, off)) (d : WData) (s : State) :
    exec (decodeWrite d a) s = busWrite d a[0] (windowWrite w.name (off / 2 * 2)) s := by
  obtain ⟨hw, hwindow, hoff⟩ := resolveAddr_some h
  have hwo : ∀ n, w.size = 2 ^ n → off / 2 * 2 = wordOffset (a.extractLsb' 0 n) :=
    fun n hn => by rw [wordOffset, hoff n hn]
  unfold decodeWrite
  rw [hwindow]
  simp only [windowTable, List.mem_cons, List.not_mem_nil, or_false] at hw
  rcases hw with rfl | rfl | rfl | rfl | rfl | rfl | rfl | rfl
  · rw [hwo 21 rfl]; exact busWrite_bit0 (n := 20) rfl
  · exact busWrite_bit0 (n := 12) rfl
  · exact busWrite_bit0 (n := 12) rfl
  · rw [hwo 3 rfl]; exact busWrite_bit0 (n := 2) (writeSerial_wordOffset _).symm
  · rw [hwo 2 rfl]; exact busWrite_bit0 (n := 1) (writeTimer_wordOffset _).symm
  · rw [hwo 21 rfl]; exact busWrite_bit0 (n := 20) rfl
  · rw [hwo 21 rfl]; exact busWrite_bit0 (n := 20) rfl
  · exact busWrite_bit0 (n := 20) rfl

end

/-! ## The obligations -/

/-- Settles O14: where RESOLVE finds a window the decoded operation is the cycle with that window's handler, and
where it finds none it is the unmapped cycle. -/
theorem busCycleIsResolveThenHandler : Obligations.BusCycleIsResolveThenHandler := by
  intro s addr size data hphase haligned
  rw [← mask24_bit0] at haligned
  have hwaligned : (writeData size data).size.aligned (mask24 addr)[0] = true := by rwa [writeData_size]
  rw [perform, decode_read haligned, perform, decode_write haligned]
  simp only [pseudoRead, pseudoWrite]
  cases hr : resolveAddr (mask24 addr) with
  | none =>
    have hunmapped := (resolveAddr_eq_none_iff _).1 hr
    rw [(decodeRead_unmapped_iff size _).2 hunmapped, (decodeWrite_unmapped_iff _ _).2 hunmapped]
    exact ⟨unmappedCycle_raises hphase haligned hunmapped, unmappedCycle_raises hphase hwaligned hunmapped⟩
  | some x =>
    rw [exec_decodeRead hr, exec_decodeWrite hr]
    exact ⟨busRead_next.2 ⟨hphase, haligned, rfl⟩, busWrite_next.2 ⟨hphase, hwaligned, rfl⟩⟩

/-- Settles O16. -/
theorem storageReadsReturnCells : Obligations.StorageReadsReturnCells :=
  fun st off _ hphase => ⟨exec_storeRead_byte st off hphase, exec_storeRead_word st hphase⟩

/-- Settles O17. -/
theorem romReadsReturnImageBytes : Obligations.RomReadsReturnImageBytes :=
  fun b off _ hphase => ⟨exec_bankRead_byte b off hphase, exec_bankRead_word b hphase⟩

/-- Settles O18, from what a completed storage write has done. -/
theorem storageWritesStoreTheirBytesOnly : Obligations.StorageWritesStoreTheirBytesOnly := by
  intro st off d s hphase haligned
  have hexec : exec (storeWriteInstr st off d) s = .next _ :=
    (exec_storeWrite s st off d).trans (busWrite_next.2 ⟨hphase, haligned, rfl⟩)
  obtain ⟨-, -, ht, hcells⟩ := exec_storeWrite_cells hexec
  exact ⟨_, hexec, ht, hcells⟩

/-- Settles O19: the cells of the data hold its bytes. -/
theorem writeThenReadReturnsData : Obligations.WriteThenReadReturnsData := by
  intro st off d s t h
  obtain ⟨hphase, haligned, -, hcells⟩ := exec_storeWrite_cells h
  exact exec_storeRead_written hphase haligned fun i b hb => by rw [hcells, hb]; rfl

/-- Settles O20: the two cells of the written word, read one by one and together. -/
theorem wordAccessIsBigEndian : Obligations.WordAccessIsBigEndian := by
  intro s t addr v hwindow hwrite
  have hstore : ∃ st, decodeWindow (mask24 addr) = some (storeName st) := by
    rcases hwindow with h | h | h
    · exact ⟨.ram, h⟩
    · exact ⟨.pagemap, h⟩
    · exact ⟨.segmap, h⟩
  obtain ⟨st, hst⟩ := hstore
  have hregion := (decodeWindow_eq_store_iff st _).1 hst
  have haddr : (mask24 addr).toNat = storeRegion st * 0x200000 + (mask24 addr).toNat % 0x200000 := by omega
  obtain ⟨heven, hphase, -, hcells⟩ := perform_storeWrite_word haddr (Nat.mod_lt _ (by decide)) hwrite
  generalize hi : (mask24 addr).toNat % 0x200000 = i at haddr hcells
  have hupper : t.cell st i = upperByte v := by rw [hcells, (storedByte_word v i).1]; rfl
  have hlower : t.cell st (i + 1) = lowerByte v := by rw [hcells, (storedByte_word v i).2]; rfl
  have hnext : (mask24 (addr + 1)).toNat = storeRegion st * 0x200000 + (i + 1) := by
    rw [mask24_succ heven, haddr, Nat.add_assoc]
  have hparity := (bit0_eq_false_iff _).1 heven
  refine ⟨?_, ?_, ?_⟩
  · rw [perform_storeRead_byte haddr (by omega) hphase, hupper]
    rfl
  · rw [perform_storeRead_byte hnext (by omega) hphase, hlower]
    rfl
  · rw [perform_storeRead_word haddr (by omega) heven hphase, hupper, hlower, append_bytes]

/-- Settles O21. -/
theorem romWritesAreDropped : Obligations.RomWritesAreDropped := by
  intro b off d s hphase haligned
  rw [exec_bankWrite, busWrite_next]
  exact ⟨hphase, haligned, by rw [dropWrite_eq]⟩

/-- Settles O23: the lanes of the constant. -/
theorem switchReadsItsConstant : Obligations.SwitchReadsItsConstant := by
  intro off s hphase
  refine ⟨fun heven => ?_, fun heven => ?_, fun hodd => ?_⟩
  · exact exec_rdSwitch_aligned hphase (aligned_word.2 heven)
  · rw [exec_rdSwitch_aligned hphase rfl, heven]
    rfl
  · rw [exec_rdSwitch_aligned hphase rfl, hodd]
    rfl

/-- Settles O24. -/
theorem unmappedReadsRaise : Obligations.UnmappedReadsRaise :=
  fun a size _ hphase haligned => ⟨decodeRead_unmapped_iff size a, unmappedCycle_raises hphase haligned⟩

/-- Settles O25: a write is the same cycle, its data unused. -/
theorem unmappedWritesRaise : Obligations.UnmappedWritesRaise :=
  fun a d _ hphase haligned => ⟨decodeWrite_unmapped_iff d a, unmappedCycle_raises hphase haligned⟩

end Sys2Proof.Machine
end

section
/-! PROOFS. Which records are refused (60_exceptions.md R246, 70_reset_and_hazards.md R276): every operation completes
in exactly its phases, and a step refuses exactly the refused forms. -/

namespace Sys2Proof.Machine

/-! ## Where an operation completes -/

/-- An operation is refused outside its phases, and completes in them where it is well-formed. -/
def Completes (op : State → Host.Outcome State Fault Refusal) (admits : Phase → Bool) (wf : Bool) : Prop :=
  ∀ s, (admits s.phase = false → ∃ x, op s = .refused x) ∧
    (wf = true → admits s.phase = true → ∃ t, op s = .next t)

/-- A bus cycle completes while the board is running, if the cycle itself does. -/
theorem busCycle_completes {size : Size} {odd wf : Bool} {k : State → Host.Outcome State Fault Refusal}
    (haligned : wf = true → size.aligned odd = true) (hk : wf = true → ∀ s, ∃ t, k s = .next t) :
    Completes (fun s => busCycle size odd s (k s)) (· == .running) wf := by
  intro s
  beta_reduce
  rcases busCycle_cases size odd s (k s) with ⟨hp, -, h⟩ | ⟨hp, ha, h⟩ | ⟨hp, h⟩ <;> rw [h]
  · exact ⟨fun hnot => by simp [hp] at hnot, fun hwf _ => hk hwf s⟩
  · exact ⟨fun _ => ⟨_, rfl⟩, fun hwf _ => by simp [haligned hwf] at ha⟩
  · exact ⟨fun _ => ⟨_, rfl⟩, fun _ hrunning => absurd (by simpa using hrunning) hp⟩

theorem busRead_completes (size : Size) (odd : Bool) (handler : BusWord → State → BusWord × State) :
    Completes (busRead size odd handler) (· == .running) (size.aligned odd) :=
  busCycle_completes id fun _ _ => ⟨_, rfl⟩

theorem busWrite_completes (d : WData) (odd : Bool) (handler : BusWord → BusWord → State → State) :
    Completes (busWrite d odd handler) (· == .running) (d.size.aligned odd) :=
  busCycle_completes id fun _ _ => ⟨_, rfl⟩

/-- An unmapped cycle is well-formed where no window matches. -/
theorem unmappedCycle_completes (size : Size) (a : Addr) :
    Completes (unmappedCycle size a) (· == .running) (size.aligned a[0] && (resolveAddr a).isNone) := by
  refine busCycle_completes (fun h => (Bool.and_eq_true_iff.1 h).1) fun h s => ?_
  have hnone := Option.isNone_iff_eq_none.1 (Bool.and_eq_true_iff.1 h).2
  exact ⟨_, by rw [hnone]; rfl⟩

theorem lineOp_completes (f : State → State) (wf : Bool) : Completes (lineOp f) (· != .unbuilt) wf := by
  intro s
  refine ⟨fun hnot => ⟨.notAdmitted s.phase, if_neg fun h => ?_⟩, fun _ hadmitted => ⟨_, lineOp_next.2 ⟨?_, rfl⟩⟩⟩
  · exact (admitsLine_iff s).1 h (by simpa using hnot)
  · simpa using hadmitted

theorem execReset_completes (wf : Bool) : Completes execReset (· != .unbuilt) wf := by
  intro s
  refine ⟨fun hnot => ⟨.notAdmitted s.phase, if_neg fun h => ?_⟩, fun _ hadmitted => ⟨_, exec_reset ?_⟩⟩
  · exact (admitsLine_iff s).1 h (by simpa using hnot)
  · simpa using hadmitted

/-- CONSTRUCT of a short bank 0 (44_board_wiring.md R216). -/
theorem exec_construct_short {s : State} {rom0 : List Byte} (rom1 : List Byte) (hphase : s.phase = .unbuilt)
    (hshort : rom0.length < bootCopyLen) :
    exec (.construct rom0 rom1) s = .next (s.respond (.error .malformedRomImage)) := by
  simp only [exec, execConstruct]
  rw [if_pos hphase, if_pos hshort]
  rfl

/-- CONSTRUCT of images neither short nor whole (10_state.md R26). -/
theorem exec_construct_romLength {s : State} {rom0 rom1 : List Byte} (hphase : s.phase = .unbuilt)
    (himages : imagesAdmitted rom0 rom1 = false) :
    exec (.construct rom0 rom1) s = .refused (.romLength rom0.length rom1.length) := by
  simp only [imagesAdmitted, Bool.or_eq_false_iff, decide_eq_false_iff_not, Bool.and_eq_false_imp, beq_iff_eq,
    beq_eq_false_iff_ne] at himages
  simp only [exec, execConstruct]
  rw [if_pos hphase, if_neg himages.1, if_neg fun h => himages.2 h.1 h.2]

theorem exec_construct_notAdmitted {s : State} (rom0 rom1 : List Byte) (hphase : s.phase ≠ .unbuilt) :
    exec (.construct rom0 rom1) s = .refused (.notAdmitted s.phase) := by
  simp only [exec, execConstruct]
  rw [if_neg hphase]

theorem execConstruct_completes (rom0 rom1 : List Byte) :
    Completes (exec (.construct rom0 rom1)) (· == .unbuilt) (imagesAdmitted rom0 rom1) := by
  intro s
  refine ⟨fun hnot => ⟨_, exec_construct_notAdmitted rom0 rom1 (by simpa using hnot)⟩, fun hwf hadmitted => ?_⟩
  have hphase : s.phase = .unbuilt := by simpa using hadmitted
  simp only [imagesAdmitted, Bool.or_eq_true, decide_eq_true_eq, Bool.and_eq_true, beq_iff_eq] at hwf
  rcases hwf with hshort | ⟨h0, h1⟩
  · exact ⟨_, exec_construct_short rom1 hphase hshort⟩
  · exact ⟨_, exec_construct hphase h0 h1⟩

/-- RESOLVE is admitted in every phase. -/
theorem execResolve_completes (addr : AddrIn) (size : Size) :
    Completes (exec (.resolve addr size)) (fun _ => true) (size.aligned addr[0]) := by
  intro s
  refine ⟨nofun, fun haligned _ => ?_⟩
  cases hr : resolveAddr (mask24 addr) with
  | none => exact ⟨_, exec_resolve_unmapped s haligned hr⟩
  | some x => exact ⟨_, exec_resolve_mapped s haligned hr⟩

/-- Every operation completes where it is admitted and well-formed. -/
theorem exec_completes (i : Instr) : Completes (exec i) i.admittedIn i.wf := by
  cases i with
  | rdRam | rdRom0 | rdRom1 | rdSerial | rdTimer | rdPagemap | rdSegmap | rdSwitch => exact busRead_completes _ _ _
  | wrRam | wrRom0 | wrRom1 | wrSerial | wrTimer | wrPagemap | wrSegmap | wrSwitch => exact busWrite_completes _ _ _
  | rdUnmapped size a => exact unmappedCycle_completes size a
  | wrUnmapped a d => exact unmappedCycle_completes d.size a
  | setlineSerInt v => exact lineOp_completes (fun t => t.setSerInt v) _
  | setlineTmrOut1 v => exact lineOp_completes (fun t => t.setTmrOut1 v) _
  | setlineTmrOut2 v => exact lineOp_completes (fun t => t.setTmrOut2 v) _
  | setlineTmrOut3 v => exact lineOp_completes (fun t => t.setTmrOut3 v) _
  | setlineTmrOut4 v => exact lineOp_completes (fun t => t.setTmrOut4 v) _
  | setlineTmrOut5 v => exact lineOp_completes (fun t => t.setTmrOut5 v) _
  | reset => exact execReset_completes _
  | construct rom0 rom1 => exact execConstruct_completes rom0 rom1
  | resolve addr size => exact execResolve_completes addr size

/-! ## Which records are refused -/

/-- What a record comes to: it is refused, or it completes. -/
def RefusedIff (o : Host.Outcome State Fault Refusal) (form : Prop) : Prop :=
  (form ∧ ∃ x, o = .refused x) ∨ (¬ form ∧ ∃ t, o = .next t)

section
variable {r : Request} {s : State}

/-- A record that the decoder rejects. -/
theorem refusedIff_of_rejected {e : Reject} (hdecode : decode r = .error e) (hform : r.refusedForm s.phase) :
    RefusedIff (perform r s) (r.refusedForm s.phase) :=
  .inl ⟨hform, _, by rw [perform, hdecode]⟩

/-- A record of a well-formed operation is refused outside the operation's phases. -/
theorem refusedIff_of_decoded {i : Instr} (hdecode : decode r = .ok i) (hwf : i.wf = true)
    (hform : r.refusedForm s.phase ↔ i.admittedIn s.phase = false) :
    RefusedIff (perform r s) (r.refusedForm s.phase) := by
  have hperform : perform r s = exec i s := by rw [perform, hdecode]
  obtain ⟨hrefused, hnext⟩ := exec_completes i s
  rw [RefusedIff, hform, hperform]
  cases hadmitted : i.admittedIn s.phase with
  | false => exact .inl ⟨rfl, hrefused hadmitted⟩
  | true => exact .inr ⟨nofun, hnext hwf hadmitted⟩

end

/-- The refused forms that show in a cycle's size and address (30_encoding.md R93). -/
def badCycle (n : Nat) (a : Addr) : Prop := (n ≠ 8 ∧ n ≠ 16) ∨ (n = 16 ∧ a.toNat % 2 = 1)

/-- The decoder admits exactly the other sizes and addresses. -/
theorem admitSize_cases (n : Nat) (a : Addr) :
    (badCycle n a ∧ ∃ e, admitSize n a = .error e) ∨
    (¬ badCycle n a ∧ ∃ size, size.aligned a[0] = true ∧ admitSize n a = .ok size) := by
  unfold badCycle
  rw [admitSize_eq, bit0_eq]
  by_cases h8 : n = 8
  · exact .inr ⟨by omega, .byte, rfl, by rw [if_pos h8]⟩
  · by_cases h16 : n = 16
    · by_cases hlast : a.toNat % 2 = 1
      · exact .inl ⟨.inr ⟨h16, hlast⟩, .oddWord a, by simp [h16, hlast]⟩
      · exact .inr ⟨by omega, .word, by simp [Size.aligned, hlast], by simp [h16, hlast]⟩
    · exact .inl ⟨.inl ⟨h8, h16⟩, .badSize n, by simp [h8, h16]⟩

/-- What the decoder gives a bus cycle is admitted while the board is running. -/
theorem decodeRead_admittedIn (size : Size) (a : Addr) (p : Phase) :
    (decodeRead size a).admittedIn p = (p == .running) := by
  unfold decodeRead
  split <;> rfl

theorem decodeWrite_admittedIn (d : WData) (a : Addr) (p : Phase) :
    (decodeWrite d a).admittedIn p = (p == .running) := by
  unfold decodeWrite
  split <;> rfl

theorem bus_refusedIff (rw : Rw) (n : Nat) (addr : AddrIn) (data : BusWord) (s : State) :
    RefusedIff (perform (.bus rw n addr data) s) ((Request.bus rw n addr data).refusedForm s.phase) := by
  rcases admitSize_cases n (mask24 addr) with ⟨hbad, e, he⟩ | ⟨hgood, size, haligned, hsize⟩
  · exact refusedIff_of_rejected (e := e) (by cases rw <;> rw [decode, he] <;> rfl) (.inr hbad)
  · have hform : (Request.bus rw n addr data).refusedForm s.phase ↔ (s.phase == .running) = false := by
      rw [beq_eq_false_iff_ne]
      exact or_iff_left hgood
    cases rw with
    | read =>
      exact refusedIff_of_decoded (by rw [decode, hsize]; rfl) (decodeRead_wf haligned)
        (by rw [decodeRead_admittedIn]; exact hform)
    | write =>
      exact refusedIff_of_decoded (by rw [decode, hsize]; rfl) (decodeWrite_wf (by rwa [writeData_size]))
        (by rw [decodeWrite_admittedIn]; exact hform)

theorem query_refusedIff (addr : AddrIn) (n : Nat) (s : State) :
    RefusedIff (perform (.query addr n) s) ((Request.query addr n).refusedForm s.phase) := by
  rcases admitSize_cases n (mask24 addr) with ⟨hbad, e, he⟩ | ⟨hgood, size, haligned, hsize⟩
  · exact refusedIff_of_rejected (e := e) (by rw [decode, he]; rfl) hbad
  · exact refusedIff_of_decoded (i := .resolve addr size) (by rw [decode, hsize]; rfl)
      (by rwa [Instr.wf, ← mask24_bit0]) (iff_of_false hgood nofun)

/-- A source code names a SETLINE exactly below 6 (30_encoding.md R86). -/
theorem decodeLine_cases (src : BitVec 3) (level : Bool) :
    (6 ≤ src.toNat ∧ decodeLine src level = .error (.noSuchLine src)) ∨
    (src.toNat < 6 ∧ ∃ i, decodeLine src level = .ok i ∧ i.wf = true ∧
      ∀ p, i.admittedIn p = (p != .unbuilt)) := by
  have hcode : ∀ n : BitVec 3, src = n ↔ src.toNat = n.toNat := fun n => BitVec.toNat_inj.symm
  unfold decodeLine
  simp only [hcode, BitVec.reduceToNat]
  split_ifs
  case neg => exact .inl ⟨by omega, rfl⟩
  all_goals exact .inr ⟨by omega, _, rfl, rfl, fun _ => rfl⟩

theorem line_refusedIff (src : BitVec 3) (level : Bool) (s : State) :
    RefusedIff (perform (.line src level) s) ((Request.line src level).refusedForm s.phase) := by
  rcases decodeLine_cases src level with ⟨hsrc, he⟩ | ⟨hsrc, i, hi, hwf, hadmitted⟩
  · exact refusedIff_of_rejected he (.inr hsrc)
  · refine refusedIff_of_decoded hi hwf ?_
    rw [hadmitted, bne_eq_false_iff_eq]
    exact or_iff_left (Nat.not_le.2 hsrc)

theorem construct_refusedIff (rom0 rom1 : List Byte) (s : State) :
    RefusedIff (perform (.construct rom0 rom1) s) ((Request.construct rom0 rom1).refusedForm s.phase) := by
  have himages : imagesAdmitted rom0 rom1 = true ↔
      ¬ (8 ≤ rom0.length ∧ ¬ (rom0.length = 0x2000 ∧ rom1.length = 0x2000)) := by
    rw [imagesAdmitted, Bool.or_eq_true, decide_eq_true_eq, Bool.and_eq_true, beq_iff_eq, beq_iff_eq,
      not_and_not_right, romBankSize_eq, show bootCopyLen = 8 from rfl, ← not_lt]
    exact Decidable.or_iff_not_imp_left
  cases hwf : imagesAdmitted rom0 rom1 with
  | true =>
    refine refusedIff_of_decoded (i := .construct rom0 rom1) rfl hwf ?_
    rw [Instr.admittedIn, beq_eq_false_iff_ne]
    exact or_iff_left (himages.1 hwf)
  | false =>
    have hform : (Request.construct rom0 rom1).refusedForm s.phase :=
      .inr (not_not.1 (mt himages.2 (by rw [hwf]; nofun)))
    refine .inl ⟨hform, ?_⟩
    by_cases hphase : s.phase = .unbuilt
    · exact ⟨_, exec_construct_romLength hphase hwf⟩
    · exact ⟨_, exec_construct_notAdmitted rom0 rom1 hphase⟩

/-- A record is refused where it has a refused form, and else completes. -/
theorem perform_refusedIff (r : Request) (s : State) : RefusedIff (perform r s) (r.refusedForm s.phase) := by
  cases r with
  | bus rw n addr data => exact bus_refusedIff rw n addr data s
  | line src level => exact line_refusedIff src level s
  | reset => exact refusedIff_of_decoded (i := .reset) rfl rfl bne_eq_false_iff_eq.symm
  | construct rom0 rom1 => exact construct_refusedIff rom0 rom1 s
  | query addr n => exact query_refusedIff addr n s

/-- The step takes the next record and performs it. -/
theorem step_eq_perform {s : State} {r : Request} {rest : List Request} (hinbox : s.inbox = r :: rest) :
    step s = perform r { s with inbox := rest } := by
  rw [step, State.fetch, hinbox]

/-! ## The obligations -/

/-- Settles O13. -/
theorem admittedOperationsComplete : Obligations.AdmittedOperationsComplete := fun i s => exec_completes i s

/-- Settles O12: a record that is not refused completes, so no step stops in another way. -/
theorem onlyRefusedFormsAreRefused : Obligations.OnlyRefusedFormsAreRefused := by
  intro s r rest hinbox
  rw [step_eq_perform hinbox]
  rcases perform_refusedIff r { s with inbox := rest } with ⟨hform, x, hx⟩ | ⟨hform, t, ht⟩
  · rw [hx]
    exact ⟨iff_of_true ⟨x, rfl⟩ hform, nofun⟩
  · rw [ht]
    exact ⟨iff_of_false (by rintro ⟨x, ⟨⟩⟩) hform, nofun⟩

/-- Settles O10. -/
theorem stepRunsTheDecodedOperation : Obligations.StepRunsTheDecodedOperation := by
  intro s r rest i hinbox hdecode
  rw [step_eq_perform hinbox, perform, hdecode]

/-- Settles O11. -/
theorem idleStepChangesNothing : Obligations.IdleStepChangesNothing := by
  intro s hinbox
  rw [step, State.fetch, hinbox]

end Sys2Proof.Machine
end

section
/-! PROOFS. RESET (43_boot_sequencer.md), CONSTRUCT and its checks (44_board_wiring.md, 40_decode.md R121), the banks'
streams, and the pseudo-operations RD32 and WR32 (30_encoding.md R96). -/

namespace Sys2Proof.Machine

/-! ## RESET -/

theorem exec_reset_next {s t : State} : exec .reset s = .next t ↔
    s.phase ≠ .unbuilt ∧ t = ({ s.bootCopy.emit .cpuReset with phase := .running }.respond .done) := by
  by_cases hphase : s.phase = .unbuilt
  · obtain ⟨x, hx⟩ := (exec_completes .reset s).1 (by rw [hphase]; rfl)
    rw [hx]
    exact iff_of_false nofun fun h => h.1 hphase
  · rw [exec_reset hphase, Host.Outcome.next.injEq, eq_comm]
    exact (and_iff_right hphase).symm

/-- What RESET leaves behind: the vector in RAM, one more CpuReset, a running board, the same bank 0. -/
theorem reset_outcome {s t : State} (h : exec .reset s = .next t) :
    (∀ i, t.cell .ram i = if i < 8 then s.romCell .rom0 i else s.cell .ram i) ∧
      t.phase = .running ∧ t.out = s.out ++ [.cpuReset] ∧ ∀ i, t.romCell .rom0 i = s.romCell .rom0 i := by
  obtain ⟨-, rfl⟩ := exec_reset_next.1 h
  refine ⟨bootCopy_cell s, rfl, congrArg (· ++ [OutEvent.cpuReset]) (bootCopy_out s), fun i => ?_⟩
  have hrom : s.bootCopy.rom0 = s.rom0 := by rw [bootCopy_eq, setMem_rom0]
  exact congrArg (romByte .rom0 · i) hrom

/-! ## The checks of CONSTRUCT -/

/-- Trying the overlap of the two spans decides whether any address matches both. -/
theorem windowsApart_iff (w v : Window) :
    windowsApart w v = true ↔ ∀ a, ¬ (windowMatches w a = true ∧ windowMatches v a = true) := by
  simp only [windowsApart, List.all_eq_true, List.mem_range, Bool.not_eq_true', Bool.and_eq_false_imp]
  constructor
  · rintro h a ⟨hw, hv⟩
    obtain ⟨hwbase, hwlast⟩ := windowMatches_span hw
    obtain ⟨hvbase, hvlast⟩ := windowMatches_span hv
    have hmax : max w.base v.base + (a - max w.base v.base) = a := by omega
    have htried := h (a - max w.base v.base) (by omega)
    rw [hmax] at htried
    exact absurd hv (by simp [htried hw])
  · intro h k _ hw
    exact Bool.eq_false_iff.2 fun hv => h _ ⟨hw, hv⟩

theorem allApart_iff (table : List Window) : allApart table = true ↔
    table.Pairwise (fun w v => ∀ a, ¬ (windowMatches w a = true ∧ windowMatches v a = true)) := by
  induction table with
  | nil => exact iff_of_true rfl .nil
  | cons w rest ih =>
    simp only [allApart, Bool.and_eq_true, List.all_eq_true, windowsApart_iff, ih, List.pairwise_cons]

theorem windowShapeValid_iff (w : Window) : windowShapeValid w = true ↔
    1 ≤ w.size ∧ w.size ≤ w.period ∧ w.base ≤ w.last ∧ w.last ≤ 0xFFFFFF ∧ w.size ≤ w.last - w.base + 1 := by
  rw [windowShapeValid, addrMax_eq]
  simp only [Bool.and_eq_true, decide_eq_true_eq, and_assoc]

/-! ## The streams of a bank -/

theorem bankOfStreams_cons (e o : Byte) (even odd : List Byte) :
    bankOfStreams (e :: even) (o :: odd) = e :: o :: bankOfStreams even odd := rfl

/-! ## RD32 and WR32 -/

/-- A pair whose first record completes without an error is its two records in turn. -/
theorem performPair_next {rs : Request × Request} {s t : State} {r : Response}
    (h : performPair rs s = (r, .next t)) (hfirst : ∀ u, perform rs.1 s = .next u → u.resp = .done) :
    ∃ u, perform rs.1 s = .next u ∧ perform rs.2 u = .next t := by
  unfold performPair at h
  cases hu : perform rs.1 s with
  | next u =>
    simp only [hu, hfirst u hu, Prod.mk.injEq] at h
    exact ⟨u, rfl, h.2⟩
  | fault x => simp [hu] at h
  | refused x => simp [hu] at h

/-- The result of two word reads. -/
theorem rd32Result_performPair {rs : Request × Request} {t u : State} {hi lo : BusWord}
    (hhi : perform rs.1 t = .next (t.respond (.word hi)))
    (hlo : perform rs.2 (t.respond (.word hi)) = .next (u.respond (.word lo))) :
    rd32Result (performPair rs t) = some (hi ++ lo) := by
  unfold performPair
  simp only [hhi, respond_resp, hlo, rd32Result]

/-- The two halves of a 32-bit word make it up again. -/
theorem append_words (v : BitVec 32) : (v.extractLsb' 16 16 ++ v.extractLsb' 0 16 : BitVec (16 + 16)) = v := by
  rw [BitVec.extractLsb'_append_extractLsb'_eq_extractLsb' (by rfl)]
  exact BitVec.extractLsb'_eq_self

/-- Two addresses on from one in the first eighth of the masked space, nothing is carried out of the mask. -/
theorem mask24_add_two {addr : AddrIn} (hram : (mask24 addr).toNat / 0x200000 = 0) :
    (mask24 (addr + 2)).toNat = (mask24 addr).toNat + 2 := by
  rw [mask24_toNat] at hram ⊢
  rw [mask24_toNat, BitVec.toNat_add]
  simp only [addrInWidth, BitVec.reduceToNat]
  omega

section
variable {s t : State} {addr : AddrIn} {v : BitVec 32} {i : Nat}

/-- WR32 that completes in RAM has stored both halves, the second one past the first. -/
theorem wr32_cells {r : Response} (haddr : (mask24 addr).toNat = storeRegion .ram * 0x200000 + i)
    (haddr2 : (mask24 (addr + 2)).toNat = storeRegion .ram * 0x200000 + (i + 2)) (hi : i + 2 < 0x200000)
    (hwr : wr32 addr v s = (r, .next t)) :
    t.phase = .running ∧ t.cell .ram i ++ t.cell .ram (i + 1) = v.extractLsb' 16 16 ∧
      t.cell .ram (i + 2) ++ t.cell .ram (i + 2 + 1) = v.extractLsb' 0 16 := by
  have hi' : i < 0x200000 := by omega
  obtain ⟨u, hu, ht⟩ := performPair_next hwr fun u hu => (perform_storeWrite_word haddr hi' hu).2.2.1
  obtain ⟨-, -, -, hucells⟩ := perform_storeWrite_word haddr hi' hu
  obtain ⟨-, hphase, -, htcells⟩ := perform_storeWrite_word haddr2 hi ht
  have hkept : ∀ k, k < i + 2 → t.cell .ram k = u.cell .ram k := by
    intro k hk
    rw [htcells, storedByte, if_neg (by omega), if_neg (by omega)]
    rfl
  refine ⟨hphase, ?_, ?_⟩
  · rw [hkept i (by omega), hkept (i + 1) (by omega), hucells, hucells, (storedByte_word _ i).1,
      (storedByte_word _ i).2]
    exact append_bytes _
  · rw [htcells, htcells, (storedByte_word _ (i + 2)).1, (storedByte_word _ (i + 2)).2]
    exact append_bytes _

/-- RD32 in RAM reads the four cells. -/
theorem rd32_cells (haddr : (mask24 addr).toNat = storeRegion .ram * 0x200000 + i)
    (haddr2 : (mask24 (addr + 2)).toNat = storeRegion .ram * 0x200000 + (i + 2)) (hi : i + 2 < 0x200000)
    (heven : i % 2 = 0) (hphase : t.phase = .running) :
    rd32Result (rd32 addr t) =
      some ((t.cell .ram i ++ t.cell .ram (i + 1)) ++ (t.cell .ram (i + 2) ++ t.cell .ram (i + 2 + 1))) := by
  have hbit : (mask24 addr)[0] = false := (bit0_eq_false_iff _).2 (by rw [haddr, storeRegion]; omega)
  have hbit2 : (mask24 (addr + 2))[0] = false := (bit0_eq_false_iff _).2 (by rw [haddr2, storeRegion]; omega)
  have hread2 := perform_storeRead_word haddr2 hi hbit2
    (t := t.respond (.word (t.cell .ram i ++ t.cell .ram (i + 1)))) hphase 0
  rw [cell_respond, cell_respond] at hread2
  exact rd32Result_performPair (perform_storeRead_word haddr (by omega) hbit hphase 0) hread2

end

/-! ## The obligations -/

/-- Settles O43: the copy changes RAM only. -/
theorem resetCopiesTheVectorAndSignals : Obligations.ResetCopiesTheVectorAndSignals := by
  intro s hphase
  have h := exec_reset hphase
  obtain ⟨hcells, -⟩ := reset_outcome h
  refine ⟨_, h, ?_, fun i hi => (hcells i).trans (if_pos hi), fun i hi => (hcells i).trans (if_neg (Nat.not_lt.2 hi))⟩
  rw [bootCopy_eq]
  rfl

/-- Settles O44: the first eight addresses are RAM's, and RESET has made the board running. -/
theorem resetVectorIsReadableOnTheBus : Obligations.ResetVectorIsReadableOnTheBus := by
  intro s t i h hi
  obtain ⟨hcells, hphase, -⟩ := reset_outcome h
  have haddr : (mask24 (BitVec.ofNat 32 i)).toNat = storeRegion .ram * 0x200000 + i := by
    rw [mask24_toNat, BitVec.toNat_ofNat, storeRegion]
    simp only [addrInWidth]
    omega
  rw [perform_storeRead_byte haddr (by omega) hphase, hcells, if_pos hi]

/-- Settles O45: the write between changes RAM only, so the second copy is the first one again. -/
theorem secondResetRestoresTheVector : Obligations.SecondResetRestoresTheVector := by
  intro s t u off d hreset hwrite
  obtain ⟨-, htphase, htout, htrom⟩ := reset_outcome hreset
  obtain ⟨huphase, -, hu, -⟩ := exec_storeWrite_cells (st := .ram) hwrite
  have hagain := exec_reset (s := u) (huphase ▸ nofun)
  obtain ⟨hcells, -, hout, -⟩ := reset_outcome hagain
  have hurom : ∀ i, u.romCell .rom0 i = t.romCell .rom0 i := fun i => by rw [hu]; rfl
  have huout : u.out = t.out := by rw [hu, respond_out, setMem_out]
  refine ⟨_, hagain, fun i hi => ?_, ?_⟩
  · rw [hcells, if_pos hi, hurom, htrom]
  · rw [hout, huout, htout, List.append_assoc]
    rfl

/-- Settles O47. -/
theorem constructBuildsTheBoard : Obligations.ConstructBuildsTheBoard := by
  intro rom0 rom1 s hphase h0 h1
  exact ⟨_, exec_construct hphase h0 h1, rfl, fun st _ => by cases st <;> rfl⟩

/-- Settles O48. -/
theorem shortBankIsMalformed : Obligations.ShortBankIsMalformed :=
  fun _ rom1 _ hphase hshort => exec_construct_short rom1 hphase hshort

/-- Settles O50: the shape of each window, and the overlap of each pair. -/
theorem windowTableCheckIsExact : Obligations.WindowTableCheckIsExact := by
  intro table
  simp only [windowTableValid, Bool.and_eq_true, List.all_eq_true, windowShapeValid_iff, allApart_iff]

/-- Settles O52, by induction along the two streams. -/
theorem bankInterleavesItsStreams : Obligations.BankInterleavesItsStreams := by
  intro even odd hlength
  induction even generalizing odd with
  | nil => exact ⟨rfl, nofun⟩
  | cons e even ih =>
    cases odd with
    | nil => cases hlength
    | cons o odd =>
      obtain ⟨hbank, hbytes⟩ := ih odd (Nat.succ.inj hlength)
      rw [bankOfStreams_cons]
      refine ⟨by simp only [List.length_cons, hbank]; omega, fun k hk => ?_⟩
      cases k with
      | zero => exact ⟨rfl, rfl⟩
      | succ k => exact hbytes k (Nat.lt_of_succ_lt_succ hk)

/-- Settles O60: the reads find the halves that the writes stored. -/
theorem wr32ThenRd32ReturnsData : Obligations.Wr32ThenRd32ReturnsData := by
  intro s t addr v r heven hram hram2 hwr
  have hregion := (decodeWindow_eq_store_iff .ram _).1 hram
  have hregion2 := (decodeWindow_eq_store_iff .ram _).1 hram2
  simp only [storeRegion, mask24_add_two hregion] at hregion hregion2
  have haddr : (mask24 addr).toNat = storeRegion .ram * 0x200000 + (mask24 addr).toNat := by
    rw [storeRegion, Nat.zero_mul, Nat.zero_add]
  have haddr2 : (mask24 (addr + 2)).toNat = storeRegion .ram * 0x200000 + ((mask24 addr).toNat + 2) := by
    rw [mask24_add_two hregion, storeRegion, Nat.zero_mul, Nat.zero_add]
  have hparity : (mask24 addr).toNat % 2 = 0 := (bit0_eq_false_iff _).1 ((mask24_bit0 addr).trans heven)
  obtain ⟨hphase, hhi, hlo⟩ := wr32_cells haddr haddr2 (by omega) hwr
  rw [rd32_cells haddr haddr2 (by omega) hparity hphase, hhi, hlo]
  exact congrArg some (append_words v)

end Sys2Proof.Machine
end

section
/-! PROOFS. SETLINE and the device windows (42_interrupt_router.md, 44_board_wiring.md section 2, 41_window_access.md
sections 4 and 5): what a SETLINE does, and what a call into a chip does with the answer it gets. -/

namespace Sys2Proof.Machine

/-! ## A repeated level -/

section
variable {s : State} {v : Bool}

theorem setSerInt_same (h : s.serint = v) : s.setSerInt v = s := if_pos h
theorem setTmrOut2_same (h : s.tout2 = v) : s.setTmrOut2 v = s := if_pos h
theorem setTmrOut3_same (h : s.tout3 = v) : s.setTmrOut3 v = s := if_pos h
theorem setTmrOut4_same (h : s.tout4 = v) : s.setTmrOut4 v = s := if_pos h
theorem setTmrOut5_same (h : s.tout5 = v) : s.setTmrOut5 v = s := if_pos h

theorem setTmrOut2_new (h : s.tout2 = !v) :
    s.setTmrOut2 v = { s with tout2 := v, irq6 := v, out := s.out ++ [.cpuIrq irqTimer2 v] } :=
  if_neg fun hsame => (Bool.eq_not_self v).1 (hsame.symm.trans h)

theorem setTmrOut3_new (h : s.tout3 = !v) :
    s.setTmrOut3 v = { s with tout3 := v, irq7 := v, out := s.out ++ [.cpuIrq irqTimer3 v] } :=
  if_neg fun hsame => (Bool.eq_not_self v).1 (hsame.symm.trans h)

/-- A clock line at a new level: the edge, and then the call (44_board_wiring.md R223). -/
theorem setTmrOut4_new (h : s.tout4 = !v) : s.setTmrOut4 v =
    State.callSerial { s with tout4 := v, out := s.out ++ [.serialClk .A v] } (.serialClk .A v) :=
  if_neg fun hsame => (Bool.eq_not_self v).1 (hsame.symm.trans h)

theorem setTmrOut5_new (h : s.tout5 = !v) : s.setTmrOut5 v =
    State.callSerial { s with tout5 := v, out := s.out ++ [.serialClk .B v] } (.serialClk .B v) :=
  if_neg fun hsame => (Bool.eq_not_self v).1 (hsame.symm.trans h)

/-- An admitted SETLINE that does nothing only answers. -/
theorem lineOp_same (f : State → State) (hphase : s.phase ≠ .unbuilt) (hf : f s = s) :
    lineOp f s = .next (s.respond .done) :=
  lineOp_next.2 ⟨hphase, by rw [hf]⟩

/-- A SETLINE of an interrupt source as one `if`: nothing at a repeated level, else the changed state. -/
theorem lineOp_ite (f : State → State) {cur : Bool} {t : State} (hphase : s.phase ≠ .unbuilt)
    (hf : (cur = v ∧ f s = s) ∨ (cur = !v ∧ f s = t)) :
    lineOp f s = .next (if cur ≠ v then t.respond .done else s.respond .done) := by
  rcases hf with ⟨hcur, h⟩ | ⟨hcur, h⟩
  · rw [if_neg (not_not.2 hcur), lineOp_same f hphase h]
  · have hne : cur ≠ v := by rw [hcur]; cases v <;> decide
    rw [if_pos hne]
    exact lineOp_next.2 ⟨hphase, by rw [h]⟩

end

/-! ## Calls into the serial chip -/

section
variable (s : State)

/-- A call to a chip that makes no SETLINE is the call alone. -/
theorem callSerial_quiet {c : DevCall} (h : (s.serialAnswer c).ints = []) : s.callSerial c = s.askSerial c := by
  rw [State.callSerial, h]
  rfl

theorem callTimer_quiet {c : DevCall} (h : (s.timerAnswer c).outs = []) : s.callTimer c = s.askTimer c := by
  rw [State.callTimer, h]
  rfl

theorem callSerial_quiet_levels {c : DevCall} (h : (s.serialAnswer c).ints = []) :
    (s.callSerial c).irq5 = s.irq5 ∧ (s.callSerial c).irq6 = s.irq6 ∧ (s.callSerial c).irq7 = s.irq7 := by
  rw [callSerial_quiet s h]
  exact ⟨rfl, rfl, rfl⟩

/-- A call with a listed answer uses it up, and the line, level 5 and the trace follow its SETLINEs. -/
theorem callSerial_listed {x : SerialAnswer} {rest : List SerialAnswer} (hlisted : s.serialAnswers = x :: rest)
    (hsource : s.irq5 = s.serint) (c : DevCall) :
    (s.callSerial c).serialAnswers = rest ∧ (s.callSerial c).serint = x.ints.getLast?.getD s.serint ∧
      (s.callSerial c).irq5 = (s.callSerial c).serint ∧
      (s.callSerial c).out = s.out ++ (newLevels s.serint x.ints).map (OutEvent.cpuIrq irqSerial) := by
  rw [callSerial_eq, serialAnswer_listed hlisted, hlisted, hsource, newLevels_getLast]
  exact ⟨rfl, rfl, rfl, rfl⟩

/-- A SERIAL read on the chip's lane: one call, and a draw for the other lane (41_window_access.md R140). -/
theorem readSerial_upper (off : BitVec 3) {l : BusWord} (h : onUpper l = true) :
    readSerial off l s =
      ((s.serialAnswer (.serialRead (serialReg off))).data ++
        Config.unspec8 (s.callSerial (.serialRead (serialReg off))).draws,
        (s.callSerial (.serialRead (serialReg off))).drawn) := by
  simp only [readSerial, serialByte, takesIn_serial, h, if_true, State.unspec8, joinLanes_serial]

/-- On the other lane alone: two draws and no call. -/
theorem readSerial_lower (off : BitVec 3) {l : BusWord} (h : onUpper l = false) :
    readSerial off l s = (Config.unspec8 s.draws ++ Config.unspec8 s.drawn.draws, s.drawn.drawn) := by
  simp only [readSerial, serialByte, takesIn_serial, h, State.unspec8, joinLanes_serial]
  rfl

theorem writeSerial_upper (off : BitVec 3) (b : BusWord) {l : BusWord} (h : onUpper l = true) :
    writeSerial off b l s = s.callSerial (.serialWrite (serialReg off) (upperByte b)) := by
  simp only [writeSerial, takesIn_serial, h, if_true, laneByte_serial]

theorem writeSerial_lower (off : BitVec 3) (b : BusWord) {l : BusWord} (h : onUpper l = false) :
    writeSerial off b l s = s := by
  simp [writeSerial, h]

/-- Every cycle at an even offset takes in the upper lane. -/
theorem onUpper_lanes_even (size : Size) : onUpper (lanes size false) = true := by cases size <;> rfl

end

/-- Only the serial line, level 5, the trace (by level 5 events) and the interface's bookkeeping differ. -/
def OnlySerial (s t : State) : Prop :=
  { t with serint := s.serint, irq5 := s.irq5, out := s.out, resp := s.resp, draws := s.draws,
           calls := s.calls, serialAnswers := s.serialAnswers } = s ∧
    ∃ es, t.out = s.out ++ es ∧ ∀ e ∈ es, e.isIrq5 = true

theorem isIrq5_of_mem_map {ls : List Bool} : ∀ e ∈ ls.map (OutEvent.cpuIrq irqSerial), e.isIrq5 = true := by
  intro e he
  obtain ⟨v, -, rfl⟩ := List.mem_map.1 he
  rfl

theorem callSerial_onlySerial (s : State) (c : DevCall) : OnlySerial s (s.callSerial c) := by
  rw [callSerial_eq]
  exact ⟨rfl, _, rfl, isIrq5_of_mem_map⟩

theorem onlySerial_of_out_eq {s t : State} (hout : t.out = s.out)
    (h : { t with serint := s.serint, irq5 := s.irq5, out := s.out, resp := s.resp, draws := s.draws,
                  calls := s.calls, serialAnswers := s.serialAnswers } = s) : OnlySerial s t :=
  ⟨h, [], by rw [hout, List.append_nil], nofun⟩

theorem readSerial_onlySerial (s : State) (off : BitVec 3) (l : BusWord) : OnlySerial s (readSerial off l s).2 := by
  cases h : onUpper l with
  | true => rw [readSerial_upper s off h]; exact callSerial_onlySerial s _
  | false => rw [readSerial_lower s off h]; exact onlySerial_of_out_eq rfl rfl

theorem writeSerial_onlySerial (s : State) (off : BitVec 3) (b l : BusWord) :
    OnlySerial s (writeSerial off b l s) := by
  cases h : onUpper l with
  | true => rw [writeSerial_upper s off b h]; exact callSerial_onlySerial s _
  | false => rw [writeSerial_lower s off b h]; exact onlySerial_of_out_eq rfl rfl

/-- A SERIAL cycle at an even offset calls the chip once; beside the call it draws and answers. -/
theorem exec_serial_even {i : Instr} {s t : State} {off : BitVec 3} (heven : off[0] = false)
    (hi : (∃ size, i = .rdSerial size off) ∨ ∃ d, i = .wrSerial off d) (h : exec i s = .next t) :
    ∃ c n r, t = { s.callSerial c with draws := n, resp := r } := by
  rcases hi with ⟨size, rfl⟩ | ⟨d, rfl⟩
  · rw [exec_rdSerial, busRead_next, heven, readSerial_upper s off (onUpper_lanes_even size)] at h
    exact ⟨_, _, _, h.2.2⟩
  · rw [exec_wrSerial, busWrite_next, heven, writeSerial_upper s off _ (onUpper_lanes_even _)] at h
    exact ⟨_, _, _, h.2.2⟩

/-! ## Calls into the timer chip -/

/-- A TIMER cycle is one register access with its lane mask, and then an answer. -/
theorem exec_timer {i : Instr} {s t : State}
    (hi : (∃ size off, i = .rdTimer size off) ∨ ∃ off d, i = .wrTimer off d) (h : exec i s = .next t) :
    ∃ c r, c.isAccess = true ∧ t = (s.callTimer c).respond r := by
  rcases hi with ⟨size, off, rfl⟩ | ⟨off, d, rfl⟩
  · rw [exec_rdTimer, busRead_next] at h
    exact ⟨_, _, rfl, h.2.2⟩
  · rw [exec_wrTimer, busWrite_next] at h
    exact ⟨_, _, rfl, h.2.2⟩

theorem exec_rdTimer_aligned {s : State} {size : Size} {off : BitVec 2} (hphase : s.phase = .running)
    (haligned : size.aligned off[0] = true) :
    exec (.rdTimer size off) s =
      .next ((s.callTimer (.timerRead (timerReg off) (lanes size off[0]))).respond
        (laneResponse size off[0] (s.timerAnswer (.timerRead (timerReg off) (lanes size off[0]))).data)) := by
  rw [exec_rdTimer, busRead_next]
  exact ⟨hphase, haligned, rfl⟩

theorem exec_wrTimer_aligned {s : State} {off : BitVec 2} {d : WData} (hphase : s.phase = .running)
    (haligned : d.size.aligned off[0] = true) :
    exec (.wrTimer off d) s =
      .next ((s.callTimer (.timerWrite (timerReg off) (busWord d off[0]) (lanes d.size off[0]))).respond .done) := by
  rw [exec_wrTimer, busWrite_next]
  exact ⟨hphase, haligned, rfl⟩

/-! ## Which operations move which lines -/

/-- All eight lines are as before. -/
def SameLines (s t : State) : Prop :=
  t.serint = s.serint ∧ t.tout2 = s.tout2 ∧ t.tout3 = s.tout3 ∧ t.tout4 = s.tout4 ∧ t.tout5 = s.tout5 ∧
    t.irq5 = s.irq5 ∧ t.irq6 = s.irq6 ∧ t.irq7 = s.irq7

theorem setMem_sameLines (s : State) (st : Store) (m : Memory) : SameLines s (s.setMem st m) := by
  cases st <;> exact ⟨rfl, rfl, rfl, rfl, rfl, rfl, rfl, rfl⟩

/-- Before CONSTRUCT every line is where CONSTRUCT puts it, since the trace is empty. -/
theorem built_sameLines {s : State} (hinv : s.Inv) (hphase : s.phase = .unbuilt) (rom0 rom1 : List Byte) :
    SameLines s (s.built rom0 rom1) := by
  have hout := hinv.unbuiltTrace hphase
  have h5 : s.irq5 = lineInit := by rw [hinv.irq5Trace, hout]; rfl
  have h6 : s.irq6 = lineInit := by rw [hinv.irq6Trace, hout]; rfl
  have h7 : s.irq7 = lineInit := by rw [hinv.irq7Trace, hout]; rfl
  have hA : s.tout4 = lineInit := by rw [hinv.clkATrace, hout]; rfl
  have hB : s.tout5 = lineInit := by rw [hinv.clkBTrace, hout]; rfl
  exact ⟨(hinv.irq5Source.symm.trans h5).symm, (hinv.irq6Source.symm.trans h6).symm,
    (hinv.irq7Source.symm.trans h7).symm, hA.symm, hB.symm, h5.symm, h6.symm, h7.symm⟩

section
variable {i : Instr} {s t : State}

/-- The operations that reach no chip and are no SETLINE of a wired source move no line. -/
theorem exec_sameLines (hinv : s.Inv) (h : exec i s = .next t) (hquiet : i.mayMoveLines = false) :
    SameLines s t := by
  cases exec_effect h with
  | answer => exact ⟨rfl, rfl, rfl, rfl, rfl, rfl, rfl, rfl⟩
  | store st off d =>
    have hstored : SameLines s (s.storeWrite st (wordOffset off) (busWord d off[0]) (lanes d.size off[0])) := by
      rw [storeWrite_eq]
      exact setMem_sameLines ..
    exact hstored
  | reset =>
    have hcopied : SameLines s s.bootCopy := by
      rw [bootCopy_eq]
      exact setMem_sameLines ..
    exact hcopied
  | construct rom0 rom1 hphase => exact built_sameLines hinv hphase rom0 rom1
  | rdSerial | wrSerial | rdTimer | wrTimer | setSerInt | setTmrOut2 | setTmrOut3 | setTmrOut4 | setTmrOut5 =>
    cases hquiet

/-- A clock edge whose call the serial chip answers without a SETLINE moves no level. -/
theorem setTmrOut4_quiet (s : State) (v : Bool) (hserial : ∀ c, (s.serialAnswer c).ints = []) :
    (s.setTmrOut4 v).irq5 = s.irq5 ∧ (s.setTmrOut4 v).irq6 = s.irq6 ∧ (s.setTmrOut4 v).irq7 = s.irq7 := by
  rcases setTmrOut4_cases s v with ⟨-, h⟩ | ⟨-, h⟩
  · rw [h]
    exact ⟨rfl, rfl, rfl⟩
  · rw [h]
    exact callSerial_quiet_levels _ (hserial _)

theorem setTmrOut5_quiet (s : State) (v : Bool) (hserial : ∀ c, (s.serialAnswer c).ints = []) :
    (s.setTmrOut5 v).irq5 = s.irq5 ∧ (s.setTmrOut5 v).irq6 = s.irq6 ∧ (s.setTmrOut5 v).irq7 = s.irq7 := by
  rcases setTmrOut5_cases s v with ⟨-, h⟩ | ⟨-, h⟩
  · rw [h]
    exact ⟨rfl, rfl, rfl⟩
  · rw [h]
    exact callSerial_quiet_levels _ (hserial _)

/-- With chips that make no SETLINE in answer, only a SETLINE of an interrupt source moves a level. -/
theorem exec_quiet_levels (hinv : s.Inv) (h : exec i s = .next t)
    (hi : ∀ v, i ≠ .setlineSerInt v ∧ i ≠ .setlineTmrOut2 v ∧ i ≠ .setlineTmrOut3 v)
    (hserial : ∀ c, (s.serialAnswer c).ints = []) (htimer : ∀ c, (s.timerAnswer c).outs = []) :
    t.irq5 = s.irq5 ∧ t.irq6 = s.irq6 ∧ t.irq7 = s.irq7 := by
  cases hmay : i.mayMoveLines with
  | false =>
    obtain ⟨-, -, -, -, -, h5, h6, h7⟩ := exec_sameLines hinv h hmay
    exact ⟨h5, h6, h7⟩
  | true =>
    cases exec_effect h with
    | answer _ hlines => rw [hlines] at hmay; cases hmay
    | store st => cases st <;> cases hmay
    | reset | construct => cases hmay
    | rdSerial size off =>
      cases hup : onUpper (lanes size off[0]) with
      | true => rw [readSerial_upper s off hup, callSerial_quiet s (hserial _)]; exact ⟨rfl, rfl, rfl⟩
      | false => rw [readSerial_lower s off hup]; exact ⟨rfl, rfl, rfl⟩
    | wrSerial off d =>
      cases hup : onUpper (lanes d.size off[0]) with
      | true => rw [writeSerial_upper s off _ hup, callSerial_quiet s (hserial _)]; exact ⟨rfl, rfl, rfl⟩
      | false => rw [writeSerial_lower s off _ hup]; exact ⟨rfl, rfl, rfl⟩
    | rdTimer | wrTimer => rw [callTimer_quiet s (htimer _)]; exact ⟨rfl, rfl, rfl⟩
    | setSerInt v => exact absurd rfl (hi v).1
    | setTmrOut2 v => exact absurd rfl (hi v).2.1
    | setTmrOut3 v => exact absurd rfl (hi v).2.2
    | setTmrOut4 v => exact setTmrOut4_quiet s v hserial
    | setTmrOut5 v => exact setTmrOut5_quiet s v hserial

end

/-! ## The obligations -/

/-- Settles O26, by the lane of the cycle. -/
theorem serialReadsUseTheUpperLane : Obligations.SerialReadsUseTheUpperLane := by
  intro off s hphase
  let called := s.callSerial (.serialRead (serialReg off))
  refine ⟨fun heven => ⟨called.draws + 1, ?_⟩, fun heven => ⟨called.draws + 1, Config.unspec8 called.draws, ?_⟩,
    fun hodd => ⟨s.draws + 1 + 1, Config.unspec8 s.drawn.draws, ?_⟩⟩
  · rw [exec_rdSerial, busRead_next, heven, readSerial_upper s off onUpper_even]
    exact ⟨hphase, rfl, by rw [laneResponse, laneByte_even, upperByte_append]; rfl⟩
  · rw [exec_rdSerial, busRead_next, heven, readSerial_upper s off (onUpper_word false)]
    exact ⟨hphase, rfl, rfl⟩
  · rw [exec_rdSerial, busRead_next, hodd, readSerial_lower s off onUpper_odd]
    exact ⟨hphase, rfl, by rw [laneResponse, laneByte_odd, lowerByte_append]; rfl⟩

/-- Settles O27, by the lane of the cycle. -/
theorem serialWritesUseTheUpperLane : Obligations.SerialWritesUseTheUpperLane := by
  intro off s hphase
  refine ⟨fun v heven => ?_, fun v heven => ?_, fun v hodd => ?_⟩
  · rw [exec_wrSerial, busWrite_next, heven, writeSerial_upper s off _ (onUpper_lanes_even _)]
    exact ⟨hphase, rfl, by rw [busWord, joinLanes_even, upperByte_append]; rfl⟩
  · rw [exec_wrSerial, busWrite_next, heven, writeSerial_upper s off _ (onUpper_lanes_even _)]
    exact ⟨hphase, rfl, rfl⟩
  · rw [exec_wrSerial, busWrite_next, hodd, wdata_size_byte, writeSerial_lower s off _ onUpper_odd]
    exact ⟨hphase, rfl, rfl⟩

/-- Settles O28: the handler's frame, which the answer does not widen. -/
theorem serialCyclesLeaveTheRest : Obligations.SerialCyclesLeaveTheRest := by
  rintro i s t (⟨size, off, rfl⟩ | ⟨off, d, rfl⟩) h
  · obtain ⟨-, -, rfl⟩ := busRead_next.1 h
    exact readSerial_onlySerial s off _
  · obtain ⟨-, -, rfl⟩ := busWrite_next.1 h
    exact writeSerial_onlySerial s off _ _

/-- Settles O29: each of these operations is one call into the serial chip, after its clock edge if it has one. -/
theorem serialAnswerDrivesLevelFive : Obligations.SerialAnswerDrivesLevelFive := by
  intro i s t x rest edge hi hlisted hsource h
  rcases hi with ⟨rfl, off, heven, hi⟩ | ⟨v, rfl, rfl, hnew⟩ | ⟨v, rfl, rfl, hnew⟩
  · obtain ⟨c, n, r, rfl⟩ := exec_serial_even heven hi h
    rw [List.append_nil]
    exact callSerial_listed s hlisted hsource c
  · rw [exec_setlineTmrOut4, lineOp_next] at h
    obtain ⟨-, rfl⟩ := h
    rw [setTmrOut4_new hnew]
    exact callSerial_listed { s with tout4 := v, out := s.out ++ [.serialClk .A v] } hlisted hsource
      (.serialClk .A v)
  · rw [exec_setlineTmrOut5, lineOp_next] at h
    obtain ⟨-, rfl⟩ := h
    rw [setTmrOut5_new hnew]
    exact callSerial_listed { s with tout5 := v, out := s.out ++ [.serialClk .B v] } hlisted hsource
      (.serialClk .B v)

/-- Settles O30, by the lanes of the three cycles. -/
theorem timerReadsPassTheLanes : Obligations.TimerReadsPassTheLanes := by
  intro off s hphase
  refine ⟨fun heven => ?_, fun heven => ?_, fun hodd => ?_⟩
  · rw [exec_rdTimer_aligned hphase (aligned_word.2 heven), heven]
    rfl
  · rw [exec_rdTimer_aligned hphase rfl, heven]
    rfl
  · rw [exec_rdTimer_aligned hphase rfl, hodd]
    rfl

/-- Settles O31, by the lanes of the three cycles. -/
theorem timerWritesPassTheLanes : Obligations.TimerWritesPassTheLanes := by
  intro off s hphase
  refine ⟨fun v heven => ?_, fun v heven => ?_, fun v hodd => ?_⟩
  · rw [exec_wrTimer_aligned (d := .word v) hphase (aligned_word.2 heven), heven]
    rfl
  · rw [exec_wrTimer_aligned hphase rfl, heven]
    rfl
  · rw [exec_wrTimer_aligned hphase rfl, hodd]
    rfl

/-- Settles O32: after the access itself the cycle is a run of line changes. -/
theorem timerCyclesLeaveTheRest : Obligations.TimerCyclesLeaveTheRest := by
  intro i s t hi h
  obtain ⟨c, r, -, rfl⟩ := exec_timer hi h
  have hlines := callTimer_lineMoves s c
  obtain ⟨hmem, -, -⟩ := hlines.keepsArrays
  obtain ⟨hrom0, hrom1, hphase, hinbox, hout⟩ := hlines.moves.keepsBoard
  exact ⟨congrFun hmem .ram, congrFun hmem .pagemap, congrFun hmem .segmap, hrom0, hrom1, hphase, hinbox, hout⟩

/-- Settles O35: the two cases of each source. -/
theorem interruptSourcesDriveTheirLevels : Obligations.InterruptSourcesDriveTheirLevels := by
  intro v s hphase
  exact ⟨lineOp_ite (State.setSerInt · v) hphase (setSerInt_cases s v),
    lineOp_ite (State.setTmrOut2 · v) hphase (setTmrOut2_cases s v),
    lineOp_ite (State.setTmrOut3 · v) hphase (setTmrOut3_cases s v)⟩

/-- Settles O36. -/
theorem timerOutputOneGoesNowhere : Obligations.TimerOutputOneGoesNowhere :=
  fun v _ hphase => lineOp_same (State.setTmrOut1 · v) hphase rfl

/-- Settles O37, source by source; TMR_OUT1 has no record. -/
theorem repeatedLevelChangesNothing : Obligations.RepeatedLevelChangesNothing := by
  intro src v s hphase hlevel
  cases src with
  | tmrOut1 => cases hlevel
  | serInt => exact lineOp_same (State.setSerInt · v) hphase (setSerInt_same (Option.some.inj hlevel))
  | tmrOut2 => exact lineOp_same (State.setTmrOut2 · v) hphase (setTmrOut2_same (Option.some.inj hlevel))
  | tmrOut3 => exact lineOp_same (State.setTmrOut3 · v) hphase (setTmrOut3_same (Option.some.inj hlevel))
  | tmrOut4 => exact lineOp_same (State.setTmrOut4 · v) hphase (setTmrOut4_same (Option.some.inj hlevel))
  | tmrOut5 => exact lineOp_same (State.setTmrOut5 · v) hphase (setTmrOut5_same (Option.some.inj hlevel))

/-- Settles O38: the call comes after the edge has been emitted, and its answer adds level 5 events only. -/
theorem clockEdgePrecedesItsInterrupt : Obligations.ClockEdgePrecedesItsInterrupt := by
  intro v s hphase
  constructor
  · intro hnew
    have hexec : exec (.setlineTmrOut4 v) s = .next ((s.setTmrOut4 v).respond .done) :=
      lineOp_next (f := (State.setTmrOut4 · v)).2 ⟨hphase, rfl⟩
    rw [setTmrOut4_new hnew, callSerial_eq] at hexec
    exact ⟨_, _, hexec, List.append_assoc .., isIrq5_of_mem_map, rfl, rfl, rfl⟩
  · intro hnew
    have hexec : exec (.setlineTmrOut5 v) s = .next ((s.setTmrOut5 v).respond .done) :=
      lineOp_next (f := (State.setTmrOut5 · v)).2 ⟨hphase, rfl⟩
    rw [setTmrOut5_new hnew, callSerial_eq] at hexec
    exact ⟨_, _, hexec, List.append_assoc .., isIrq5_of_mem_map, rfl, rfl, rfl⟩

/-- Settles O41: the three SETLINEs set their own level, the quiet operations move no line, and the rest moves levels
only through what the chips answer. -/
theorem onlyLineOperationsMoveLines : Obligations.OnlyLineOperationsMoveLines := by
  intro i s t hinv h
  refine ⟨?_, ?_, ?_, exec_sameLines hinv h, exec_quiet_levels hinv h⟩
  · rintro v rfl
    rw [exec_setlineSerInt, lineOp_next] at h
    obtain ⟨-, rfl⟩ := h
    obtain ⟨-, h6, -, h7, -⟩ := setSerInt_frame s v
    exact ⟨setSerInt_irq5 s v hinv.irq5Source, h6, h7⟩
  · rintro v rfl
    rw [exec_setlineTmrOut2, lineOp_next] at h
    obtain ⟨-, rfl⟩ := h
    obtain ⟨-, h5, -, h7, -⟩ := setTmrOut2_frame s v
    exact ⟨setTmrOut2_irq6 s v hinv.irq6Source, h5, h7⟩
  · rintro v rfl
    rw [exec_setlineTmrOut3, lineOp_next] at h
    obtain ⟨-, rfl⟩ := h
    obtain ⟨-, h5, -, h6, -⟩ := setTmrOut3_frame s v
    exact ⟨setTmrOut3_irq7 s v hinv.irq7Source, h5, h6⟩

end Sys2Proof.Machine
end

section
/-! PROOFS. The timer chip's answer (20_memory.md R68, R69): each SETLINE of a list does to the board what its events
say, and so does the list. -/

namespace Sys2Proof.Machine

/-! ## Levels and events of a list of SETLINEs -/

theorem lastLevel_cons (x : TimerOut × Bool) (outs : List (TimerOut × Bool)) (c : TimerOut) (d : Bool) :
    lastLevel (x :: outs) c d = if x.1 = c then lastLevel outs c x.2 else lastLevel outs c d := by
  unfold lastLevel
  by_cases h : x.1 = c
  · cases hlast : (outs.filter (fun y => y.1 == c)).getLast? <;> simp [h, List.getLast?_cons, hlast]
  · simp [h]

/-- Output 1 causes no event, so its entry in the levels does not count. -/
theorem timerEdges_congr {level level' : TimerOut → Bool} (h : ∀ c, c ≠ .out1 → level c = level' c)
    (outs : List (TimerOut × Bool)) : timerEdges level outs = timerEdges level' outs := by
  induction outs generalizing level level' with
  | nil => rfl
  | cons x outs ih =>
    obtain ⟨c, v⟩ := x
    have hupdate : ∀ k, k ≠ .out1 → Function.update level c v k = Function.update level' c v k := by
      intro k hk
      by_cases hkc : k = c
      · rw [hkc, Function.update_self, Function.update_self]
      · rw [Function.update_of_ne hkc, Function.update_of_ne hkc, h k hk]
    by_cases hc : c = .out1
    · subst hc
      have hskip : ∀ k, k ≠ .out1 → Function.update level .out1 v k = level k :=
        fun k hk => Function.update_of_ne hk v level
      have hskip' : ∀ k, k ≠ .out1 → Function.update level' .out1 v k = level' k :=
        fun k hk => Function.update_of_ne hk v level'
      simp only [timerEdges, timerEvent, Option.toList_none, List.nil_append]
      rw [ih hskip, ih hskip', ite_self, ite_self, ih h]
    · simp only [timerEdges, h c hc]
      rw [ih h, ih hupdate]

/-- The events of one SETLINE, where the outputs are at `level`. -/
def setlineEvents (level : TimerOut → Bool) (c : TimerOut) (v : Bool) : List OutEvent :=
  if v = level c then [] else (timerEvent c v).toList

theorem timerEdges_cons (level : TimerOut → Bool) (c : TimerOut) (v : Bool) (outs : List (TimerOut × Bool)) :
    timerEdges level ((c, v) :: outs) =
      setlineEvents level c v ++ timerEdges (Function.update level c v) outs := by
  unfold setlineEvents
  by_cases h : v = level c
  · simp only [timerEdges, if_pos h, List.nil_append]
    rw [h, Function.update_eq_self]
  · simp only [timerEdges, if_neg h]

/-! ## The serial answers among the events -/

theorem withSerialAnswers_nil (d : Bool) (ys : List SerialAnswer) : withSerialAnswers d ys [] = [] := by
  cases ys <;> rfl

/-- An event that goes to no chip takes no answer. -/
theorem withSerialAnswers_cons_none {e : OutEvent} (he : e.delivery = none) (d : Bool) (ys : List SerialAnswer)
    (es : List OutEvent) : withSerialAnswers d ys (e :: es) = e :: withSerialAnswers d ys es := by
  cases ys with
  | nil => rfl
  | cons y ys => simp only [withSerialAnswers, he]

/-- A clock edge takes the next answer. -/
theorem withSerialAnswers_cons_some {e : OutEvent} {c : DevCall} (he : e.delivery = some c) (d : Bool)
    (y : SerialAnswer) (ys : List SerialAnswer) (es : List OutEvent) :
    withSerialAnswers d (y :: ys) (e :: es) =
      e :: (newLevels d y.ints).map (OutEvent.cpuIrq irqSerial) ++
        withSerialAnswers (y.ints.getLast?.getD d) ys es := by
  simp only [withSerialAnswers, he]

theorem clockEdges_cons (e : OutEvent) (es : List OutEvent) :
    clockEdges (e :: es) = clockEdges es + if e.delivery.isSome then 1 else 0 := List.countP_cons

theorem clockEdges_append (es fs : List OutEvent) : clockEdges (es ++ fs) = clockEdges es + clockEdges fs :=
  List.countP_append

/-- The serial line after answers, from level `d`. -/
def lastSerInt (d : Bool) (ys : List SerialAnswer) : Bool := (ys.flatMap (·.ints)).getLast?.getD d

theorem lastSerInt_append (d : Bool) (ys zs : List SerialAnswer) :
    lastSerInt d (ys ++ zs) = lastSerInt (lastSerInt d ys) zs := by
  unfold lastSerInt
  rw [List.flatMap_append, List.getLast?_append]
  cases (zs.flatMap (·.ints)).getLast? <;> rfl

theorem lastSerInt_cons (d : Bool) (y : SerialAnswer) (ys : List SerialAnswer) :
    lastSerInt d (y :: ys) = lastSerInt (y.ints.getLast?.getD d) ys := by
  have hone : lastSerInt d [y] = y.ints.getLast?.getD d := by simp [lastSerInt]
  rw [← hone, ← lastSerInt_append, List.singleton_append]

/-- Events in two parts: the second part goes on with the answers and the level that the first one left. -/
theorem withSerialAnswers_append (d : Bool) (ys : List SerialAnswer) (es fs : List OutEvent) :
    withSerialAnswers d ys (es ++ fs) = withSerialAnswers d ys es ++
      withSerialAnswers (lastSerInt d (ys.take (clockEdges es))) (ys.drop (clockEdges es)) fs := by
  induction es generalizing d ys with
  | nil =>
    rw [withSerialAnswers_nil]
    rfl
  | cons e es ih =>
    rw [List.cons_append]
    cases he : e.delivery with
    | none =>
      have hcount : clockEdges (e :: es) = clockEdges es := by simp [clockEdges_cons, he]
      rw [withSerialAnswers_cons_none he, withSerialAnswers_cons_none he, ih, hcount]
      rfl
    | some c =>
      have hcount : clockEdges (e :: es) = clockEdges es + 1 := by simp [clockEdges_cons, he]
      rw [hcount]
      cases ys with
      | nil =>
        have hnext := ih d []
        simp only [List.take_nil, List.drop_nil] at hnext ⊢
        exact congrArg (e :: ·) hnext
      | cons y ys =>
        rw [withSerialAnswers_cons_some he, withSerialAnswers_cons_some he, ih, List.take_succ_cons, lastSerInt_cons,
          List.drop_succ_cons, List.append_assoc]

/-- The level 5 events of an answer leave level 5 at the last level. -/
theorem lastDriven_newLevels (d r : Bool) (ls : List Bool) :
    lastDriven (.irq irqSerial) r ((newLevels d ls).map (OutEvent.cpuIrq irqSerial)) =
      (newLevels d ls).getLast?.getD r := by
  induction newLevels d ls generalizing r with
  | nil => rfl
  | cons v vs ih =>
    rw [List.map_cons, lastDriven_cons _ rfl, if_pos rfl, ih, List.getLast?_cons]
    rfl

/-! ## What events have done to the board -/

/-- From `s` to `u` the timer chip's lines caused the events `es`. -/
structure Driven (es : List OutEvent) (s u : State) : Prop where
  irq6 : u.irq6 = lastDriven (.irq irqTimer2) s.irq6 es
  irq7 : u.irq7 = lastDriven (.irq irqTimer3) s.irq7 es
  out : ∃ new, u.out = s.out ++ new ∧ new.filter (fun e => !e.isIrq5) = es
  calls : u.calls = s.calls ++ es.filterMap OutEvent.delivery
  /-- Where the serial chip's answers to the clock calls are listed. -/
  listed : clockEdges es ≤ s.serialAnswers.length →
    u.out = s.out ++ withSerialAnswers s.serint s.serialAnswers es ∧
    u.serialAnswers = s.serialAnswers.drop (clockEdges es) ∧
    u.serint = lastSerInt s.serint (s.serialAnswers.take (clockEdges es)) ∧
    u.irq5 = lastDriven (.irq irqSerial) s.irq5 (withSerialAnswers s.serint s.serialAnswers es)

theorem Driven.nil (s : State) : Driven [] s s where
  irq6 := rfl
  irq7 := rfl
  out := ⟨[], (List.append_nil _).symm, rfl⟩
  calls := (List.append_nil _).symm
  listed _ := by rw [withSerialAnswers_nil, List.append_nil]; exact ⟨rfl, rfl, rfl, rfl⟩

theorem Driven.trans {es fs : List OutEvent} {s t u : State} (hst : Driven es s t) (htu : Driven fs t u) :
    Driven (es ++ fs) s u where
  irq6 := by rw [htu.irq6, hst.irq6, lastDriven_append]
  irq7 := by rw [htu.irq7, hst.irq7, lastDriven_append]
  out := by
    obtain ⟨new, hnew, rfl⟩ := hst.out
    obtain ⟨new', hnew', rfl⟩ := htu.out
    exact ⟨new ++ new', by rw [hnew', hnew, List.append_assoc], List.filter_append ..⟩
  calls := by rw [htu.calls, hst.calls, List.filterMap_append, List.append_assoc]
  listed h := by
    rw [clockEdges_append] at h ⊢
    obtain ⟨hout, hanswers, hserint, hirq5⟩ := hst.listed (by omega)
    obtain ⟨hout', hanswers', hserint', hirq5'⟩ := htu.listed (by rw [hanswers, List.length_drop]; omega)
    rw [hserint, hanswers] at hout' hirq5'
    rw [hanswers] at hanswers' hserint'
    rw [withSerialAnswers_append, List.take_add, lastSerInt_append, lastDriven_append]
    refine ⟨by rw [hout', hout, List.append_assoc], by rw [hanswers', List.drop_drop], by rw [hserint', hserint],
      by rw [hirq5', hirq5]⟩

section
variable (s : State) (v : Bool)

/-- A new level of output 2 or 3: one event, which goes to the processor. -/
theorem driven_tmrOut2 :
    Driven [.cpuIrq irqTimer2 v] s { s with tout2 := v, irq6 := v, out := s.out ++ [.cpuIrq irqTimer2 v] } where
  irq6 := rfl
  irq7 := rfl
  out := ⟨_, rfl, rfl⟩
  calls := (List.append_nil _).symm
  listed _ := by
    rw [withSerialAnswers_cons_none rfl, withSerialAnswers_nil]
    exact ⟨rfl, rfl, rfl, rfl⟩

theorem driven_tmrOut3 :
    Driven [.cpuIrq irqTimer3 v] s { s with tout3 := v, irq7 := v, out := s.out ++ [.cpuIrq irqTimer3 v] } where
  irq6 := rfl
  irq7 := rfl
  out := ⟨_, rfl, rfl⟩
  calls := (List.append_nil _).symm
  listed _ := by
    rw [withSerialAnswers_cons_none rfl, withSerialAnswers_nil]
    exact ⟨rfl, rfl, rfl, rfl⟩

theorem filter_level5 (ls : List Bool) :
    (ls.map (OutEvent.cpuIrq irqSerial)).filter (fun e => !e.isIrq5) = [] :=
  List.filter_eq_nil_iff.2 fun e he => by simp [isIrq5_of_mem_map e he]

/-- A new level of output 4 or 5: the clock edge, and the call with what its answer drives
(44_board_wiring.md R223). -/
theorem driven_serialClk (ch : Chan) (a4 a5 : Bool) :
    Driven [.serialClk ch v] s
      (State.callSerial { s with tout4 := a4, tout5 := a5, out := s.out ++ [.serialClk ch v] }
        (.serialClk ch v)) := by
  rw [callSerial_eq]
  refine ⟨rfl, rfl, ⟨_, List.append_assoc .., ?_⟩, rfl, fun hlisted => ?_⟩
  · rw [List.filter_append, filter_level5]
    rfl
  · obtain ⟨y, ys, hanswers⟩ := List.exists_cons_of_length_pos (l := s.serialAnswers) hlisted
    have hy : State.serialAnswer { s with tout4 := a4, tout5 := a5, out := s.out ++ [.serialClk ch v] }
        (.serialClk ch v) = y := serialAnswer_listed hanswers _
    have hevents : withSerialAnswers s.serint s.serialAnswers [.serialClk ch v] =
        .serialClk ch v :: (newLevels s.serint y.ints).map (OutEvent.cpuIrq irqSerial) := by
      rw [hanswers, withSerialAnswers_cons_some rfl, withSerialAnswers_nil, List.append_nil]
    have hserint : y.ints.getLast?.getD s.serint = lastSerInt s.serint (s.serialAnswers.take 1) := by
      rw [hanswers]
      exact (lastSerInt_cons s.serint y []).symm
    rw [hy, hevents, lastDriven_cons _ rfl, if_neg nofun, lastDriven_newLevels]
    exact ⟨List.append_assoc .., List.drop_one.symm, hserint, rfl⟩

/-- A SETLINE of the level that the output has already (42_interrupt_router.md R185). -/
theorem setTimerOut_same {c : TimerOut} (h : s.timerLevel c = v) : s.setTimerOut c v = s := by
  cases c with
  | out1 => rfl
  | out2 => exact setTmrOut2_same h
  | out3 => exact setTmrOut3_same h
  | out4 => exact setTmrOut4_same h
  | out5 => exact setTmrOut5_same h

/-- One SETLINE of a timer output causes its events. -/
theorem setTimerOut_driven (c : TimerOut) : Driven (setlineEvents s.timerLevel c v) s (s.setTimerOut c v) := by
  unfold setlineEvents
  by_cases hsame : v = s.timerLevel c
  · rw [if_pos hsame, setTimerOut_same s v hsame.symm]
    exact .nil s
  · rw [if_neg hsame]
    have hnew : s.timerLevel c = !v := by rw [Bool.eq_not]; exact Ne.symm hsame
    cases c with
    | out1 => exact .nil s
    | out2 => rw [State.setTimerOut, setTmrOut2_new hnew]; exact driven_tmrOut2 s v
    | out3 => rw [State.setTimerOut, setTmrOut3_new hnew]; exact driven_tmrOut3 s v
    | out4 => rw [State.setTimerOut, setTmrOut4_new hnew]; exact driven_serialClk s v .A v s.tout5
    | out5 => rw [State.setTimerOut, setTmrOut5_new hnew]; exact driven_serialClk s v .B s.tout4 v

/-! ## The levels of the outputs -/

/-- The serial chip drives no output of the timer chip. -/
theorem timerLevel_callSerial (c : DevCall) : (s.callSerial c).timerLevel = s.timerLevel := by
  rw [callSerial_eq]
  funext k
  cases k <;> rfl

/-- A SETLINE puts its output at its level, and no other; output 1 has no record. -/
theorem timerLevel_setTimerOut (c : TimerOut) {k : TimerOut} (hk : k ≠ .out1) :
    (s.setTimerOut c v).timerLevel k = Function.update s.timerLevel c v k := by
  by_cases hsame : s.timerLevel c = v
  · rw [setTimerOut_same s v hsame, ← hsame, Function.update_eq_self]
  · have hnew : s.timerLevel c = !v := by rw [Bool.eq_not]; exact hsame
    cases c with
    | out1 => exact (Function.update_of_ne hk v s.timerLevel).symm
    | out2 => rw [State.setTimerOut, setTmrOut2_new hnew]; cases k <;> rfl
    | out3 => rw [State.setTimerOut, setTmrOut3_new hnew]; cases k <;> rfl
    | out4 => rw [State.setTimerOut, setTmrOut4_new hnew, timerLevel_callSerial]; cases k <;> rfl
    | out5 => rw [State.setTimerOut, setTmrOut5_new hnew, timerLevel_callSerial]; cases k <;> rfl

end

/-! ## The whole answer -/

section
variable (outs : List (TimerOut × Bool)) (s : State)

/-- The SETLINEs of an answer, made in turn. -/
def State.setTimerOuts (s : State) (outs : List (TimerOut × Bool)) : State :=
  outs.foldl (fun t x => t.setTimerOut x.1 x.2) s

theorem setTimerOuts_cons (c : TimerOut) (v : Bool) :
    s.setTimerOuts ((c, v) :: outs) = (s.setTimerOut c v).setTimerOuts outs := rfl

theorem setTimerOuts_driven : Driven (timerEdges s.timerLevel outs) s (s.setTimerOuts outs) := by
  induction outs generalizing s with
  | nil => exact .nil s
  | cons x outs ih =>
    obtain ⟨c, v⟩ := x
    have hrest : timerEdges (Function.update s.timerLevel c v) outs =
        timerEdges (s.setTimerOut c v).timerLevel outs :=
      timerEdges_congr (fun k hk => (timerLevel_setTimerOut s v c hk).symm) outs
    rw [timerEdges_cons, hrest, setTimerOuts_cons]
    exact (setTimerOut_driven s v c).trans (ih _)

theorem timerLevel_setTimerOuts {k : TimerOut} (hk : k ≠ .out1) :
    (s.setTimerOuts outs).timerLevel k = lastLevel outs k (s.timerLevel k) := by
  induction outs generalizing s with
  | nil => rfl
  | cons x outs ih =>
    obtain ⟨c, v⟩ := x
    rw [setTimerOuts_cons, ih, timerLevel_setTimerOut s v c hk, lastLevel_cons]
    by_cases hkc : c = k
    · rw [if_pos hkc, hkc, Function.update_self]
    · rw [if_neg hkc, Function.update_of_ne (Ne.symm hkc)]

/-- Line changes keep levels 6 and 7 at their sources. -/
theorem LineMoves.timerSources {s t : State} (h : LineMoves s t) :
    (s.irq6 = s.tout2 → t.irq6 = t.tout2) ∧ (s.irq7 = s.tout3 → t.irq7 = t.tout3) := by
  induction h with
  | refl => exact ⟨id, id⟩
  | tail _ hmove ih =>
    obtain ⟨-, h6, h7⟩ := hmove.sources
    exact ⟨h6 ∘ ih.1, h7 ∘ ih.2⟩

end

/-- A call with a listed answer makes the answer's SETLINEs after the call. -/
theorem callTimer_listed {s : State} {x : TimerAnswer} {rest : List TimerAnswer}
    (h : s.timerAnswers = x :: rest) (c : DevCall) : s.callTimer c = (s.askTimer c).setTimerOuts x.outs := by
  rw [State.callTimer, timerAnswer_listed h]
  rfl

theorem timerLevel_askTimer (s : State) (c : DevCall) : (s.askTimer c).timerLevel = s.timerLevel := by
  funext k
  cases k <;> rfl

/-! ## The obligation -/

/-- Settles O33: the cycle is one call, and then the SETLINEs of its answer, which cause the events of
`timerEdges`. -/
theorem timerAnswerDrivesLevelsSixAndSeven : Obligations.TimerAnswerDrivesLevelsSixAndSeven := by
  intro i s t x rest hi hlisted h
  obtain ⟨c, r, hc, rfl⟩ := exec_timer hi h
  have hlines := callTimer_lineMoves s c
  have hlevels : ∀ k, k ≠ .out1 → (s.callTimer c).timerLevel k = lastLevel x.outs k (s.timerLevel k) := by
    intro k hk
    rw [callTimer_listed hlisted, timerLevel_setTimerOuts _ _ hk, timerLevel_askTimer]
  have hdriven : Driven (timerEdges s.timerLevel x.outs) (s.askTimer c) (s.callTimer c) := by
    rw [callTimer_listed hlisted, ← timerLevel_askTimer s c]
    exact setTimerOuts_driven x.outs (s.askTimer c)
  obtain ⟨h6, h7⟩ := hlines.timerSources
  obtain ⟨-, hanswers, -⟩ := hlines.keepsArrays
  refine ⟨?_, hlevels, fun hsource => ?_, fun hsource => ?_, hdriven.irq6, hdriven.irq7, hdriven.out,
    ⟨c, hc, ?_⟩, hdriven.listed⟩
  · rw [respond_timerAnswers, hanswers, askTimer_timerAnswers, hlisted]
    rfl
  · exact (h6 hsource).trans (hlevels .out2 nofun)
  · exact (h7 hsource).trans (hlevels .out3 nofun)
  · rw [respond_calls, hdriven.calls, askTimer_calls, List.append_assoc]
    rfl

end Sys2Proof.Machine
end

section
/-! PROOFS. The stub arrays (10_state.md R27, 20_memory.md R64): with other contents in the page map and the segment
map, everything but a read of them has the same outcome. -/

namespace Sys2Proof.Machine

/-! ## The shared operations neither read nor set the stub arrays -/

section
variable (s : State) (p g : Memory)

theorem setSerInt_withStubs (v : Bool) : (s.withStubs p g).setSerInt v = (s.setSerInt v).withStubs p g := by
  unfold State.setSerInt
  rw [withStubs_serint]
  split <;> rfl

theorem callSerial_withStubs (c : DevCall) : (s.withStubs p g).callSerial c = (s.callSerial c).withStubs p g := by
  rw [callSerial_eq, callSerial_eq s]
  rfl

theorem setTimerOut_withStubs (c : TimerOut) (v : Bool) :
    (s.withStubs p g).setTimerOut c v = (s.setTimerOut c v).withStubs p g := by
  by_cases hsame : s.timerLevel c = v
  · rw [setTimerOut_same s v hsame]
    exact setTimerOut_same (s.withStubs p g) v (by cases c <;> exact hsame)
  · have hnew : s.timerLevel c = !v := by rw [Bool.eq_not]; exact hsame
    cases c with
    | out1 => rfl
    | out2 =>
      rw [State.setTimerOut, State.setTimerOut, setTmrOut2_new hnew, setTmrOut2_new (s := s.withStubs p g) hnew]
      rfl
    | out3 =>
      rw [State.setTimerOut, State.setTimerOut, setTmrOut3_new hnew, setTmrOut3_new (s := s.withStubs p g) hnew]
      rfl
    | out4 =>
      rw [State.setTimerOut, State.setTimerOut, setTmrOut4_new hnew, setTmrOut4_new (s := s.withStubs p g) hnew]
      exact callSerial_withStubs { s with tout4 := v, out := s.out ++ [.serialClk .A v] } p g _
    | out5 =>
      rw [State.setTimerOut, State.setTimerOut, setTmrOut5_new hnew, setTmrOut5_new (s := s.withStubs p g) hnew]
      exact callSerial_withStubs { s with tout5 := v, out := s.out ++ [.serialClk .B v] } p g _

/-- The timer chip's answer is the same, and so are its SETLINEs. -/
theorem callTimer_withStubs (c : DevCall) : (s.withStubs p g).callTimer c = (s.callTimer c).withStubs p g :=
  List.foldl_hom (init := s.askTimer c) (g₁ := fun t (x : TimerOut × Bool) => t.setTimerOut x.1 x.2)
    (State.withStubs · p g) fun t x => setTimerOut_withStubs t p g x.1 x.2

theorem writeSerial_withStubs (off : BitVec serialOffWidth) (b l : BusWord) :
    writeSerial off b l (s.withStubs p g) = (writeSerial off b l s).withStubs p g := by
  cases h : onUpper l with
  | true => rw [writeSerial_upper _ off b h, writeSerial_upper s off b h, callSerial_withStubs]
  | false => rw [writeSerial_lower _ off b h, writeSerial_lower s off b h]

theorem readSerial_withStubs (off : BitVec serialOffWidth) (l : BusWord) :
    readSerial off l (s.withStubs p g) = ((readSerial off l s).1, (readSerial off l s).2.withStubs p g) := by
  cases h : onUpper l with
  | true => rw [readSerial_upper _ off h, readSerial_upper s off h, callSerial_withStubs]; rfl
  | false => rw [readSerial_lower _ off h, readSerial_lower s off h]; rfl

theorem readTimer_withStubs (off : BitVec timerOffWidth) (l : BusWord) :
    readTimer off l (s.withStubs p g) = ((readTimer off l s).1, (readTimer off l s).2.withStubs p g) :=
  Prod.ext rfl (callTimer_withStubs s p g _)

theorem bootCopy_withStubs : (s.withStubs p g).bootCopy = s.bootCopy.withStubs p g := by
  rw [bootCopy_eq, bootCopy_eq s]
  rfl

/-- A storage write goes to its own array, which in the stubs' case is one of the two. -/
theorem storeWrite_withStubs (st : Store) (wo : Nat) (b l : BusWord) :
    ∃ p' g', (s.withStubs p g).storeWrite st wo b l = (s.storeWrite st wo b l).withStubs p' g' := by
  have hs := storeWrite_eq s st wo b l
  have hstubs := storeWrite_eq (s.withStubs p g) st wo b l
  cases st with
  | ram =>
    refine ⟨p, g, ?_⟩
    unfold State.storeWrite
    split <;> split <;> rfl
  | pagemap =>
    refine ⟨((s.withStubs p g).storeWrite .pagemap wo b l).mem .pagemap, g, hstubs.trans ?_⟩
    rw [hs]
    rfl
  | segmap =>
    refine ⟨p, ((s.withStubs p g).storeWrite .segmap wo b l).mem .segmap, hstubs.trans ?_⟩
    rw [hs]
    rfl

end

/-! ## The operations -/

/-- The two outcomes are the same, but for the contents of the stub arrays. -/
def SameButStubs (o o' : Host.Outcome State Fault Refusal) : Prop :=
  (∃ x, o = .refused x ∧ o' = .refused x) ∨ ∃ t p' g', o = .next t ∧ o' = .next (t.withStubs p' g')

/-- An operation whose outcome does not depend on the stub arrays' contents. -/
def StubBlind (op : State → Host.Outcome State Fault Refusal) : Prop :=
  ∀ s p g, SameButStubs (op s) (op (s.withStubs p g))

theorem busCycle_stubBlind {size : Size} {odd : Bool} {k : State → Host.Outcome State Fault Refusal}
    (hk : StubBlind k) : StubBlind (fun s => busCycle size odd s (k s)) := by
  intro s p g
  have hadmits : (s.withStubs p g).admitsBus = s.admitsBus := rfl
  simp only [busCycle, hadmits, withStubs_phase]
  split
  · split
    · exact hk s p g
    · exact .inl ⟨_, rfl, rfl⟩
  · exact .inl ⟨_, rfl, rfl⟩

theorem busRead_stubBlind {size : Size} {odd : Bool} {handler : BusWord → State → BusWord × State}
    (h : ∀ l s p g, handler l (s.withStubs p g) = ((handler l s).1, (handler l s).2.withStubs p g)) :
    StubBlind (busRead size odd handler) := by
  refine busCycle_stubBlind fun s p g => .inr ⟨_, p, g, rfl, ?_⟩
  simp only [h]
  rfl

theorem busWrite_stubBlind {d : WData} {odd : Bool} {handler : BusWord → BusWord → State → State}
    (h : ∀ b l s p g, ∃ p' g', handler b l (s.withStubs p g) = (handler b l s).withStubs p' g') :
    StubBlind (busWrite d odd handler) := by
  refine busCycle_stubBlind fun s p g => ?_
  obtain ⟨p', g', hstubs⟩ := h (busWord d odd) (lanes d.size odd) s p g
  exact .inr ⟨_, p', g', rfl, by rw [hstubs]; rfl⟩

/-- An unmapped cycle depends on its address only. -/
theorem unmappedCycle_stubBlind (size : Size) (a : Addr) : StubBlind (unmappedCycle size a) := by
  refine busCycle_stubBlind fun s p g => ?_
  cases resolveAddr a with
  | none => exact .inr ⟨_, p, g, rfl, rfl⟩
  | some => exact .inl ⟨_, rfl, rfl⟩

theorem lineOp_stubBlind (f : State → State) (h : ∀ s p g, f (s.withStubs p g) = (f s).withStubs p g) :
    StubBlind (lineOp f) := by
  intro s p g
  have hadmits : (s.withStubs p g).admitsLine = s.admitsLine := rfl
  simp only [lineOp, hadmits, h, withStubs_phase]
  split
  · exact .inr ⟨_, p, g, rfl, rfl⟩
  · exact .inl ⟨_, rfl, rfl⟩

theorem execReset_stubBlind : StubBlind execReset := by
  intro s p g
  have hadmits : (s.withStubs p g).admitsLine = s.admitsLine := rfl
  simp only [execReset, hadmits, bootCopy_withStubs, withStubs_phase]
  split
  · exact .inr ⟨_, p, g, rfl, rfl⟩
  · exact .inl ⟨_, rfl, rfl⟩

/-- CONSTRUCT empties both arrays (70_reset_and_hazards.md R270). -/
theorem execConstruct_stubBlind (rom0 rom1 : List Byte) : StubBlind (exec (.construct rom0 rom1)) := by
  intro s p g
  by_cases hphase : s.phase = .unbuilt
  · cases himages : imagesAdmitted rom0 rom1 with
    | false =>
      exact .inl ⟨_, exec_construct_romLength hphase himages,
        exec_construct_romLength (s := s.withStubs p g) hphase himages⟩
    | true =>
      simp only [imagesAdmitted, Bool.or_eq_true, decide_eq_true_eq, Bool.and_eq_true, beq_iff_eq] at himages
      rcases himages with hshort | ⟨h0, h1⟩
      · exact .inr ⟨_, p, g, exec_construct_short rom1 hphase hshort,
          exec_construct_short (s := s.withStubs p g) rom1 hphase hshort⟩
      · exact .inr ⟨_, [], [], exec_construct hphase h0 h1, exec_construct (s := s.withStubs p g) hphase h0 h1⟩
  · exact .inl ⟨_, exec_construct_notAdmitted rom0 rom1 hphase,
      exec_construct_notAdmitted (s := s.withStubs p g) rom0 rom1 hphase⟩

theorem execResolve_stubBlind (addr : AddrIn) (size : Size) : StubBlind (execResolve addr size) := by
  intro s p g
  unfold execResolve
  split
  · split
    · exact .inr ⟨_, p, g, rfl, rfl⟩
    · exact .inr ⟨_, p, g, rfl, rfl⟩
  · exact .inl ⟨_, rfl, rfl⟩

/-- Every operation but the reads of the two stub windows is blind to them. -/
theorem exec_stubBlind {i : Instr} (hi : i.readsStub = false) : StubBlind (exec i) := by
  cases i with
  | rdPagemap | rdSegmap => cases hi
  | rdRam | rdRom0 | rdRom1 | rdSwitch => exact busRead_stubBlind fun _ _ _ _ => rfl
  | wrRom0 | wrRom1 | wrSwitch => exact busWrite_stubBlind fun _ _ _ p g => ⟨p, g, rfl⟩
  | wrRam => exact busWrite_stubBlind fun b l s p g => storeWrite_withStubs s p g .ram _ b l
  | wrPagemap => exact busWrite_stubBlind fun b l s p g => storeWrite_withStubs s p g .pagemap _ b l
  | wrSegmap => exact busWrite_stubBlind fun b l s p g => storeWrite_withStubs s p g .segmap _ b l
  | rdSerial => exact busRead_stubBlind fun l s p g => readSerial_withStubs s p g _ l
  | wrSerial => exact busWrite_stubBlind fun b l s p g => ⟨p, g, writeSerial_withStubs s p g _ b l⟩
  | rdTimer => exact busRead_stubBlind fun l s p g => readTimer_withStubs s p g _ l
  | wrTimer => exact busWrite_stubBlind fun _ _ s p g => ⟨p, g, callTimer_withStubs s p g _⟩
  | rdUnmapped size a => exact unmappedCycle_stubBlind size a
  | wrUnmapped a d => exact unmappedCycle_stubBlind d.size a
  | setlineSerInt v => exact lineOp_stubBlind (State.setSerInt · v) fun s p g => setSerInt_withStubs s p g v
  | setlineTmrOut1 v => exact lineOp_stubBlind (State.setTmrOut1 · v) fun _ _ _ => rfl
  | setlineTmrOut2 v => exact lineOp_stubBlind (State.setTmrOut2 · v) fun s p g => setTimerOut_withStubs s p g .out2 v
  | setlineTmrOut3 v => exact lineOp_stubBlind (State.setTmrOut3 · v) fun s p g => setTimerOut_withStubs s p g .out3 v
  | setlineTmrOut4 v => exact lineOp_stubBlind (State.setTmrOut4 · v) fun s p g => setTimerOut_withStubs s p g .out4 v
  | setlineTmrOut5 v => exact lineOp_stubBlind (State.setTmrOut5 · v) fun s p g => setTimerOut_withStubs s p g .out5 v
  | reset => exact execReset_stubBlind
  | construct rom0 rom1 => exact execConstruct_stubBlind rom0 rom1
  | resolve addr size => exact execResolve_stubBlind addr size

/-! ## The obligation -/

/-- Settles O58. -/
theorem stubContentsAffectNothingElse : Obligations.StubContentsAffectNothingElse := by
  intro i s p g hi
  rcases exec_stubBlind hi s p g with ⟨x, hexec, hstubs⟩ | ⟨t, p', g', hexec, hstubs⟩
  · rw [hexec]
    exact hstubs
  · rw [hexec]
    exact ⟨p', g', hstubs⟩

end Sys2Proof.Machine
end
